-- ==== Sys2Proof/Word.lean ====
section
/-! DEFINITION. The widths of the values that this hardware's ports and tables carry (spec/30_encoding.md R34 to R40). -/

namespace Sys2Proof

/-- A payload byte, a combined parity byte, a correction table entry (R34, R37, R39). -/
abbrev Byte := BitVec 8

/-- A parity nibble, a single-byte syndrome, a codeword position number (R35, R38, R50). -/
abbrev Nibble := BitVec 4

/-- The outcome level as the `level` port carries it (R40). -/
abbrev Level := BitVec 3

/-- A per-lane level, one of 0, 1, 3 (R12, R68). -/
abbrev LaneLevel := BitVec 2

end Sys2Proof
end

