-- ==== Sys2Proof/Syntax.lean ====
section
/-! DEFINITION. The four operations, the two blocks' input and output ports, the request words, the written forms, and the
caller's actions (spec/30_encoding.md R41 to R49, spec/95_test_vectors.md section 4.1). -/

namespace Sys2Proof

/-- The two separate modules (R1). Which one is addressed is no field of any word (R41). -/
inductive Block where
  | encoder
  | decoder
deriving DecidableEq, Repr

/-- The operations of spec/opcode_table.json, one constructor per row, with every field of the row's request word in the
word's order, the ignored ones too (R47: any value in an ignored field is legal). -/
inductive Instr where
  /-- ENC1 (R58): `b1` is ignored. -/
  | enc1 (b1 b0 : Byte)
  /-- ENC2 (R59). -/
  | enc2 (b1 b0 : Byte)
  /-- DEC1 (R70): `v1` and `rp[7:4]` are ignored, `b1` is only copied to `c1`. -/
  | dec1 (v1 v0 : Bool) (rp b1 b0 : Byte)
  /-- DEC2 (R71). -/
  | dec2 (v1 v0 : Bool) (rp b1 b0 : Byte)
deriving DecidableEq, Repr

/-- The encoder's input ports (R42). -/
structure EncIn where
  pair : Bool
  b1 : Byte
  b0 : Byte
deriving DecidableEq, Repr

/-- The decoder's input ports (R44). -/
structure DecIn where
  pair : Bool
  v1 : Bool
  v0 : Bool
  rp : Byte
  b1 : Byte
  b0 : Byte
deriving DecidableEq, Repr

/-- The decoder's output ports (R44). -/
structure DecOut where
  level : Level
  c1 : Byte
  c0 : Byte
deriving DecidableEq, Repr

/-- A request word presented to one of the blocks: `ENC_REQ` (R43) or `DEC_REQ` (R45). -/
inductive Request where
  | enc (w : BitVec 17)
  | dec (w : BitVec 27)
deriving DecidableEq, Repr

/-- An operation as R49 writes it: the inputs it uses, in port order; the ignored ones are omitted. -/
inductive AsmForm where
  | enc1 (b0 : Byte)
  | enc2 (b0 b1 : Byte)
  | dec1 (v0 : Bool) (b0 : Byte) (rp : Nibble)
  | dec2 (v0 v1 : Bool) (b0 b1 rp : Byte)
deriving DecidableEq, Repr

/-- One row of the opcode table of R48. A request of `block` selects the row when its value, masked, is `pattern`. -/
structure OpcodeRow where
  mnemonic : String
  block : Block
  width : Nat
  mask : Nat
  pattern : Nat
deriving DecidableEq, Repr

/-- Which of the caller's cells a channel error hits, and the mask it is XORed with (95_test_vectors.md section 4.1). -/
inductive ChannelHit where
  | b0 (mask : Byte)
  | b1 (mask : Byte)
  | p (mask : Byte)
  | l (mask : Level)
deriving DecidableEq, Repr

/-- What the caller does next: present a request word as it stands, or one of the harness's statements
(95_test_vectors.md section 4.1). -/
inductive CallerAction where
  | present (r : Request)
  | enc1
  | enc2
  | xor (hit : ChannelHit)
  | dec1
  | dec1N
  | dec2
deriving DecidableEq, Repr

end Sys2Proof
end

