-- ==== Sys2Proof/WellFormed.lean ====
section
/-! DEFINITION. What is checked of a term before it is run. Every instruction is well formed (R41, R47: no bit pattern is
illegal); what can be ill formed is a row of bytes that is meant to carry a request word. -/

namespace Sys2Proof

/-- Every instruction is well formed: each field has exactly the width of its port, and every value of an ignored field is
legal (R47). One line per constructor, so that a new instruction does not pass unseen. -/
def Instr.wellFormed : Instr → Bool
  | .enc1 _ _ => true
  | .enc2 _ _ => true
  | .dec1 _ _ _ _ _ => true
  | .dec2 _ _ _ _ _ => true

/-- The instruction is one that a written form of R49 stands for: its ignored fields are 0. This is no condition of legality. -/
def Instr.canonical : Instr → Bool
  | .enc1 b1 _ => b1 == 0
  | .enc2 _ _ => true
  | .dec1 v1 _ rp b1 _ => !v1 && rp.extractLsb' 4 4 == 0 && b1 == 0
  | .dec2 _ _ _ _ _ => true

/-- The bytes carry a request word: three bytes for the 17 bits of `ENC_REQ`, four for the 27 bits of `DEC_REQ`, the first
byte the least significant, the bits above the word 0 (the model's own container, log 7). -/
def requestBytesWellFormed : List Byte → Bool
  | [_, _, x2] => x2.extractLsb' 1 7 == 0
  | [_, _, _, x3] => x3.extractLsb' 3 5 == 0
  | _ => false

end Sys2Proof
end

