-- ==== Sys2Proof/Decode.lean ====
section
/-! DEFINITION. From request words to instructions and back (spec/30_encoding.md R43, R45, R48, R49), and the byte container
that the host's table words come in. -/

namespace Sys2Proof

/-! ### Request words -/

/-- `ENC_REQ` as ports: `pair` is bit 16, `b1` bits 15:8, `b0` bits 7:0 (R43). -/
def encInOfWord (w : BitVec 17) : EncIn :=
  { pair := w.getLsbD 16, b1 := w.extractLsb' 8 8, b0 := w.extractLsb' 0 8 }

/-- `DEC_REQ` as ports: `pair` bit 26, `v1` bit 25, `v0` bit 24, `rp` bits 23:16, `b1` bits 15:8, `b0` bits 7:0 (R45). -/
def decInOfWord (w : BitVec 27) : DecIn :=
  { pair := w.getLsbD 26, v1 := w.getLsbD 25, v0 := w.getLsbD 24,
    rp := w.extractLsb' 16 8, b1 := w.extractLsb' 8 8, b0 := w.extractLsb' 0 8 }

/-- The operation that the encoder's input ports select (R41). -/
def instrOfEncIn (p : EncIn) : Instr :=
  if p.pair then .enc2 p.b1 p.b0 else .enc1 p.b1 p.b0

/-- The operation that the decoder's input ports select (R41). -/
def instrOfDecIn (p : DecIn) : Instr :=
  if p.pair then .dec2 p.v1 p.v0 p.rp p.b1 p.b0 else .dec1 p.v1 p.v0 p.rp p.b1 p.b0

/-- The operation a request word selects. It refuses nothing: every bit pattern of each format selects a defined operation
(R41, R47). -/
def decode : Request → Instr
  | .enc w => instrOfEncIn (encInOfWord w)
  | .dec w => instrOfDecIn (decInOfWord w)

/-- The concatenation `{pair, b1, b0}` (R43). -/
def encReqWord (pair : Bool) (b1 b0 : Byte) : BitVec 17 :=
  BitVec.ofBool pair ++ b1 ++ b0

/-- The concatenation `{pair, v1, v0, rp, b1, b0}` (R45). -/
def decReqWord (pair v1 v0 : Bool) (rp b1 b0 : Byte) : BitVec 27 :=
  BitVec.ofBool pair ++ BitVec.ofBool v1 ++ BitVec.ofBool v0 ++ rp ++ b1 ++ b0

/-- The request word of an operation (R48). -/
def encode : Instr → Request
  | .enc1 b1 b0 => .enc (encReqWord false b1 b0)
  | .enc2 b1 b0 => .enc (encReqWord true b1 b0)
  | .dec1 v1 v0 rp b1 b0 => .dec (decReqWord false v1 v0 rp b1 b0)
  | .dec2 v1 v0 rp b1 b0 => .dec (decReqWord true v1 v0 rp b1 b0)

/-! ### Response words -/

/-- `DEC_RSP`, the concatenation `{level, c1, c0}` (R45); `ENC_RSP` is the byte `par` itself (R43). -/
def decRspWord (o : DecOut) : BitVec 19 :=
  o.level ++ o.c1 ++ o.c0

/-! ### The opcode table -/

/-- The four rows of R48 and spec/opcode_table.json. -/
def opcodeTable : List OpcodeRow :=
  [ { mnemonic := "ENC1", block := .encoder, width := 17, mask := 0x10000, pattern := 0x00000 },
    { mnemonic := "ENC2", block := .encoder, width := 17, mask := 0x10000, pattern := 0x10000 },
    { mnemonic := "DEC1", block := .decoder, width := 27, mask := 0x4000000, pattern := 0x0000000 },
    { mnemonic := "DEC2", block := .decoder, width := 27, mask := 0x4000000, pattern := 0x4000000 } ]

/-- The name of an operation (R3). -/
def Instr.mnemonic : Instr → String
  | .enc1 _ _ => "ENC1"
  | .enc2 _ _ => "ENC2"
  | .dec1 _ _ _ _ _ => "DEC1"
  | .dec2 _ _ _ _ _ => "DEC2"

/-- The block a request is presented to. -/
def Request.block : Request → Block
  | .enc _ => .encoder
  | .dec _ => .decoder

/-- A request's word as a number, bit 0 least significant. -/
def Request.value : Request → Nat
  | .enc w => w.toNat
  | .dec w => w.toNat

/-- "a request word `w` selects the row when `w & mask = match`" (R48), among the rows of its own block. -/
def OpcodeRow.selects (row : OpcodeRow) (r : Request) : Bool :=
  row.block == r.block && (r.value &&& row.mask) == row.pattern

/-! ### Written forms -/

/-- "Ignored inputs are omitted from the written form and taken as 0 when the request word is formed" (R49). -/
def AsmForm.toInstr : AsmForm → Instr
  | .enc1 b0 => .enc1 0 b0
  | .enc2 b0 b1 => .enc2 b1 b0
  | .dec1 v0 b0 rp => .dec1 false v0 (rp.setWidth 8) 0 b0
  | .dec2 v0 v1 b0 b1 rp => .dec2 v1 v0 rp b1 b0

/-! ### The byte container (the model's own, log 7) -/

/-- Why bytes do not carry a request word. -/
inductive DecodeError where
  /-- neither three bytes nor four -/
  | noSuchFormat
  /-- a bit above the 17 or 27 bits of the word is 1 -/
  | bitsAboveWord
deriving DecidableEq, Repr

/-- The request word that bytes carry, least significant byte first: three bytes for the encoder, four for the decoder. -/
def requestOfBytes : List Byte → Except DecodeError Request
  | [x0, x1, x2] =>
    if x2.extractLsb' 1 7 = 0 then .ok (.enc (x2.extractLsb' 0 1 ++ x1 ++ x0)) else .error .bitsAboveWord
  | [x0, x1, x2, x3] =>
    if x3.extractLsb' 3 5 = 0 then .ok (.dec (x3.extractLsb' 0 3 ++ x2 ++ x1 ++ x0)) else .error .bitsAboveWord
  | _ => .error .noSuchFormat

/-- The bytes that carry a request word. -/
def bytesOfRequest : Request → List Byte
  | .enc w => [w.extractLsb' 0 8, w.extractLsb' 8 8, (w.extractLsb' 16 1).setWidth 8]
  | .dec w => [w.extractLsb' 0 8, w.extractLsb' 8 8, w.extractLsb' 16 8, (w.extractLsb' 24 3).setWidth 8]

/-- The instruction that bytes carry; total on any bytes, refusing by name. -/
def decodeBytes (bytes : List Byte) : Except DecodeError Instr :=
  (requestOfBytes bytes).map decode

/-- The `n` low bytes of a number, least significant first. -/
def bytesOfNat : Nat → Nat → List Byte
  | 0, _ => []
  | n + 1, w => BitVec.ofNat 8 w :: bytesOfNat n (w / 256)

/-- A word of the opcode table, given as `nbits` and a number, laid out as the bytes of its container. -/
def bytesOfTableWord (nbits w : Nat) : List Byte :=
  bytesOfNat ((nbits + 7) / 8) w

/-- The request that a word of the opcode table stands for. Which block is addressed is no field of the word (R41): its size
says so, up to 24 bits for `ENC_REQ` and up to 32 for `DEC_REQ` (log 7). -/
def requestOfTableWord (nbits w : Nat) : Except DecodeError Request :=
  if w < 2 ^ nbits then requestOfBytes (bytesOfTableWord nbits w) else .error .bitsAboveWord

/-- What the decoder reads from a word of the opcode table. -/
def decodeTableWord (nbits w : Nat) : Option Instr :=
  ((requestOfTableWord nbits w).map decode).toOption

end Sys2Proof
end

