-- ==== Sys2Proof/Machine/Flags.lean ====
section
/-! DEFINITION. The outcome level, the only status this hardware has. It keeps no flag and no condition code
(spec/10_state.md R14): the level is an output of a decode operation and is read by none (spec/30_encoding.md R40). -/

namespace Sys2Proof.Machine

/-- `zext_3(lvl)`: a lane's level on the `level` port (R70). -/
def laneLevelOnPort (lvl : LaneLevel) : Level :=
  lvl.setWidth 3

/-- `zext_3(l0) + zext_3(l1)`: the raw sum of the two lanes' levels (R71, R73; 90_conflicts.md C4). -/
def pairLevel (l0 l1 : LaneLevel) : Level :=
  laneLevelOnPort l0 + laneLevelOnPort l1

/-- The level when a reference is absent: uncorrectable, by the same channel as any result (R80, R81). -/
def absentReferenceLevel : Level := 3

end Sys2Proof.Machine
end

