-- ==== Sys2Proof/Machine/Operands.lean ====
section
/-! DEFINITION. How operands are taken from ports and results put on them (spec/30_encoding.md R46, spec/40_encoder.md R61). -/

namespace Sys2Proof.Machine

/-- `v[3:0]`: the low nibble of a payload byte, the first byte's half of a parity or syndrome byte, DEC1's received parity
(R46 a, c, d). -/
def loNibble (v : Byte) : Nibble :=
  v.extractLsb' 0 4

/-- `v[7:4]`: the high nibble of a payload byte, the second byte's half of a parity or syndrome byte, "shifted down"
(R46 a, d). -/
def hiNibble (v : Byte) : Nibble :=
  (v >>> 4).setWidth 4

/-- The single parity nibble on the 8-bit port: `par[3:0]` is the nibble, `par[7:4]` is 0 (R42). -/
def singleParityByte (p : Nibble) : Byte :=
  p.setWidth 8

/-- The combined parity byte, `second << 4 | first` on nibbles extended to 8 bits (R37, R46 b). -/
def combinedParityByte (second first : Nibble) : Byte :=
  (second.setWidth 8 <<< 4) ||| first.setWidth 8

end Sys2Proof.Machine
end

