-- ==== Sys2Proof/Config.lean ====
section
/-! DEFINITION. What the builder of the hardware chooses: `BACKEND`, once for the encoder and once for the decoder's
parity unit (spec/00_scope.md R6, spec/92_eei_decisions.md D11). -/

namespace Sys2Proof

/-- The three ways to build the parity function (R6). -/
inductive Backend where
  /-- one 256-entry table (R54) -/
  | fullLut
  /-- two 16-entry tables and one XOR (R55) -/
  | splitNibbleLut
  /-- eight gated XOR stages, no table (R56) -/
  | serialXor
deriving DecidableEq, Repr

/-- The build-time parameters of one encoder and one decoder. R6 makes `BACKEND` an open argument of the model, separately
for the two blocks; no operation can read or change it (R15). -/
structure Config where
  encoder : Backend
  decoder : Backend
deriving DecidableEq, Repr

end Sys2Proof
end

