-- ==== Sys2Proof/Machine/State.lean ====
section
/-! DEFINITION. What the machine holds. The blocks hold nothing (spec/10_state.md R10): the fields are the values on the two
blocks' ports (R12, R42, R44), the caller's cells and what the caller does next (R19, spec/95_test_vectors.md section 4.1),
and the build-time parameters (R6), which stand here because `exec` has no other place for them (log 3). -/

namespace Sys2Proof.Machine

/-- The ways a step could end in a fault: none. "No operation of the block raises an exception, a trap or a fault" (R80). -/
inductive Fault where
deriving DecidableEq, Repr

/-- The ways a step is refused. -/
inductive Refusal where
  /-- Raised by `exec` for an instruction that has no meaning yet; no arm raises it. Safe. -/
  | notModelled (mnemonic : String)
  /-- Raised by `step` when the caller does nothing next, so that no inputs are presented: "a model has no run for" undriven
  inputs (93_implementation_defined.md U8). No instruction raises it. Safe (log 5). -/
  | nothingPresented
deriving DecidableEq, Repr

/-- The machine: one encoder, one decoder, and their caller. -/
structure State where
  /-- `BACKEND` of the two blocks; no step changes it (R15) -/
  config : Config
  /-- the encoder's input ports; `none` while the caller has presented nothing to the encoder (R17) -/
  encIn : Option EncIn
  /-- the encoder's output port `par`; `none` while "the outputs mean nothing" (R17) -/
  par : Option Byte
  /-- the decoder's input ports; `none` while the caller has presented nothing to the decoder (R17) -/
  decIn : Option DecIn
  /-- the decoder's output ports `level`, `c1`, `c0`; `none` while they mean nothing (R17) -/
  decOut : Option DecOut
  /-- the caller's first payload byte, `B0` -/
  cellB0 : Byte
  /-- the caller's second payload byte, `B1` -/
  cellB1 : Byte
  /-- the caller's parity cell, `P` -/
  cellP : Byte
  /-- the caller's copy of the last level, `L` -/
  cellL : Level
  /-- what the caller will do, the next action first; "Which operation follows which is decided by the caller alone" (R13) -/
  script : List CallerAction
deriving DecidableEq, Repr

/-- Before the caller has done anything. The block has no reset (R93); no inputs are presented, so the outputs carry nothing
(R17). The caller's cells and the backends are the model's choice (log 3, log 4), and the caller has nothing to do (log 5). -/
def State.reset : State :=
  { config := { encoder := .fullLut, decoder := .fullLut }
    encIn := none
    par := none
    decIn := none
    decOut := none
    cellB0 := 0
    cellB1 := 0
    cellP := 0
    cellL := 0
    script := [] }

end Sys2Proof.Machine
end

