-- ==== Sys2Proof/Machine/Tables.lean ====
section
/-! DEFINITION. The constant tables and their one kind of read (spec/20_memory.md R20 to R28). They are constants, not state
(R11): nothing writes them (R29). -/

namespace Sys2Proof.Machine

/-- A read-only table of `2 ^ n` entries of `w` bits. It carries the proof of its depth, so that an index of `n` bits always
names an entry (R28). -/
structure Rom (n w : Nat) where
  entries : List (BitVec w)
  depth : entries.length = 2 ^ n
deriving DecidableEq, Repr

/-- `ROMRead(T, i)`: entry `i`, whole (R27). -/
def romRead {n w : Nat} (T : Rom n w) (i : BitVec n) : BitVec w :=
  T.entries[i.toNat]'(by rw [T.depth]; exact i.isLt)

/-- The 256 entries of `FULL_LUT`, one row per value of `b[7:4]` (R21). Entry 0xFF is 0x3 (90_conflicts.md C1). -/
def fullLutRows : List (List Nibble) :=
  [ [0x0, 0x3, 0x5, 0x6, 0x6, 0x5, 0x3, 0x0, 0x7, 0x4, 0x2, 0x1, 0x1, 0x2, 0x4, 0x7],
    [0x9, 0xA, 0xC, 0xF, 0xF, 0xC, 0xA, 0x9, 0xE, 0xD, 0xB, 0x8, 0x8, 0xB, 0xD, 0xE],
    [0xA, 0x9, 0xF, 0xC, 0xC, 0xF, 0x9, 0xA, 0xD, 0xE, 0x8, 0xB, 0xB, 0x8, 0xE, 0xD],
    [0x3, 0x0, 0x6, 0x5, 0x5, 0x6, 0x0, 0x3, 0x4, 0x7, 0x1, 0x2, 0x2, 0x1, 0x7, 0x4],
    [0xB, 0x8, 0xE, 0xD, 0xD, 0xE, 0x8, 0xB, 0xC, 0xF, 0x9, 0xA, 0xA, 0x9, 0xF, 0xC],
    [0x2, 0x1, 0x7, 0x4, 0x4, 0x7, 0x1, 0x2, 0x5, 0x6, 0x0, 0x3, 0x3, 0x0, 0x6, 0x5],
    [0x1, 0x2, 0x4, 0x7, 0x7, 0x4, 0x2, 0x1, 0x6, 0x5, 0x3, 0x0, 0x0, 0x3, 0x5, 0x6],
    [0x8, 0xB, 0xD, 0xE, 0xE, 0xD, 0xB, 0x8, 0xF, 0xC, 0xA, 0x9, 0x9, 0xA, 0xC, 0xF],
    [0xC, 0xF, 0x9, 0xA, 0xA, 0x9, 0xF, 0xC, 0xB, 0x8, 0xE, 0xD, 0xD, 0xE, 0x8, 0xB],
    [0x5, 0x6, 0x0, 0x3, 0x3, 0x0, 0x6, 0x5, 0x2, 0x1, 0x7, 0x4, 0x4, 0x7, 0x1, 0x2],
    [0x6, 0x5, 0x3, 0x0, 0x0, 0x3, 0x5, 0x6, 0x1, 0x2, 0x4, 0x7, 0x7, 0x4, 0x2, 0x1],
    [0xF, 0xC, 0xA, 0x9, 0x9, 0xA, 0xC, 0xF, 0x8, 0xB, 0xD, 0xE, 0xE, 0xD, 0xB, 0x8],
    [0x7, 0x4, 0x2, 0x1, 0x1, 0x2, 0x4, 0x7, 0x0, 0x3, 0x5, 0x6, 0x6, 0x5, 0x3, 0x0],
    [0xE, 0xD, 0xB, 0x8, 0x8, 0xB, 0xD, 0xE, 0x9, 0xA, 0xC, 0xF, 0xF, 0xC, 0xA, 0x9],
    [0xD, 0xE, 0x8, 0xB, 0xB, 0x8, 0xE, 0xD, 0xA, 0x9, 0xF, 0xC, 0xC, 0xF, 0x9, 0xA],
    [0x4, 0x7, 0x1, 0x2, 0x2, 0x1, 0x7, 0x4, 0x3, 0x0, 0x6, 0x5, 0x5, 0x6, 0x0, 0x3] ]

/-- `FULL_LUT` (R20, R21). -/
def fullLut : Rom 8 4 :=
  { entries := fullLutRows.flatten, depth := by rw [List.length_flatten]; decide }

/-- `LOW_LUT` (R20, R22). -/
def lowLut : Rom 4 4 :=
  { entries := [0, 3, 5, 6, 6, 5, 3, 0, 7, 4, 2, 1, 1, 2, 4, 7], depth := by decide }

/-- `HIGH_LUT` (R20, R23). -/
def highLut : Rom 4 4 :=
  { entries := [0, 9, 10, 3, 11, 2, 1, 8, 12, 5, 6, 15, 7, 14, 13, 4], depth := by decide }

/-- The no-error sentinel of the correction table (R39). -/
def ctNoError : Byte := 0x00

/-- The parity-only sentinel of the correction table (R39). -/
def ctParityOnly : Byte := 0xFE

/-- The uncorrectable sentinel of the correction table (R39). -/
def ctUncorrectable : Byte := 0xFF

/-- `CT`, the correction table (R25); the sentinels' values are the spec's decision (log 11). -/
def correctionTable : Rom 4 8 :=
  { entries :=
      [ ctNoError, ctParityOnly, ctParityOnly, 0x01, ctParityOnly, 0x02, 0x04, 0x08,
        ctParityOnly, 0x10, 0x20, 0x40, 0x80, ctUncorrectable, ctUncorrectable, ctUncorrectable ]
    depth := by decide }

/-- The byte-per-entry image of a parity table: "the nibble in bits 3..0 and zero in bits 7..4" (R26). -/
def byteImage {n : Nat} (T : Rom n 4) : List Byte :=
  T.entries.map (BitVec.setWidth 8)

end Sys2Proof.Machine
end

