-- ==== Sys2Proof/Machine/Ops.lean ====
section
/-! DEFINITION. The operations that the meanings share: the parity function and its three backends (spec/40_encoder.md R50 to
R57), the syndrome, `syndrome_map` and the per-byte procedure (spec/41_decoder.md R62 to R68), and driving a block's ports.
There is no exception entry and no return to define: nothing raises an exception (spec/60_exceptions.md R80, R85, R86); an
error is the level 3 of an ordinary result, written once in `decodeByte` and once in `absentReferenceOut`. -/

namespace Sys2Proof.Machine

/-! ### The parity function -/

/-- The bits of a byte, `b[0]` first. -/
def dataBits : List (Fin 8) := [0, 1, 2, 3, 4, 5, 6, 7]

/-- `POS(i)`: the codeword position of `b[i]` (R50). -/
def pos : Fin 8 → Nibble
  | 0 => 3
  | 1 => 5
  | 2 => 6
  | 3 => 7
  | 4 => 9
  | 5 => 10
  | 6 => 11
  | 7 => 12

/-- `PAR(b)`: the XOR, over the set bits of `b`, of their positions (R51). The reference that every backend must equal. -/
def parity (b : Byte) : Nibble :=
  ((dataBits.filter fun (i : Fin 8) => b.getLsbD i).map pos).foldr (· ^^^ ·) 0

/-- One stage of `serial_xor`: the accumulator, XORed with `POS(i)` if `b[i]` is 1 (R56). -/
def serialStage (b : Byte) (acc : Nibble) (i : Fin 8) : Nibble :=
  if b.getLsbD i then acc ^^^ pos i else acc

/-- `acc_n`: the accumulator after the first `n` stages (R56). -/
def serialAcc (b : Byte) (n : Nat) : Nibble :=
  (dataBits.take n).foldl (serialStage b) 0

/-- A built parity unit, with the tables it has and no others (R24). -/
inductive ParityUnit where
  | fullLut (full : Rom 8 4)
  | splitNibbleLut (low high : Rom 4 4)
  | serialXor

/-- The unit that a choice of `BACKEND` builds (R24). -/
def parityUnit : Backend → ParityUnit
  | .fullLut => .fullLut fullLut
  | .splitNibbleLut => .splitNibbleLut lowLut highLut
  | .serialXor => .serialXor

/-- What a parity unit computes: one read (R54), two reads and an XOR (R55), or the end of the accumulator chain (R56). -/
def ParityUnit.eval : ParityUnit → Byte → Nibble
  | .fullLut full, b => romRead full b
  | .splitNibbleLut low high, b => romRead low (loNibble b) ^^^ romRead high (hiNibble b)
  | .serialXor, b => serialAcc b 8

/-- `PAR_FULL`, `PAR_SPLIT` or `PAR_SERIAL`, as the block was built (R8, R54, R55, R56). -/
def parityBy (backend : Backend) (b : Byte) : Nibble :=
  (parityUnit backend).eval b

/-- The combined parity of two bytes (R37, R59). -/
def pairParityBy (backend : Backend) (b1 b0 : Byte) : Byte :=
  combinedParityByte (parityBy backend b1) (parityBy backend b0)

/-! ### The syndrome and what it means -/

/-- `SYN(b, rp4)`: recomputed parity XOR received parity (R62). -/
def syndrome (backend : Backend) (b : Byte) (rp4 : Nibble) : Nibble :=
  parityBy backend b ^^^ rp4

/-- The 8-bit syndrome of a pair (R62). -/
def pairSyndrome (backend : Backend) (b1 b0 rp : Byte) : Byte :=
  pairParityBy backend b1 b0 ^^^ rp

/-- The four classes of a syndrome (R63). -/
inductive SyndromeClass where
  | noError
  | parityOnly
  | dataBit (i : Fin 8)
  | uncorrectable
deriving DecidableEq, Repr

/-- `SMAP(s)`, `syndrome_map` (R63). -/
def syndromeMap (s : Nibble) : SyndromeClass :=
  match s.toNat with
  | 0 => .noError
  | 1 => .parityOnly
  | 2 => .parityOnly
  | 3 => .dataBit 0
  | 4 => .parityOnly
  | 5 => .dataBit 1
  | 6 => .dataBit 2
  | 7 => .dataBit 3
  | 8 => .parityOnly
  | 9 => .dataBit 4
  | 10 => .dataBit 5
  | 11 => .dataBit 6
  | 12 => .dataBit 7
  | _ => .uncorrectable

/-- The one-hot mask of a data bit, `1 << i` (R67). -/
def bitMask (i : Fin 8) : Byte :=
  (1 : Byte) <<< i.val

/-- The entry of `CT` that stores a class (R39, R65). -/
def entryOfClass : SyndromeClass → Byte
  | .noError => ctNoError
  | .parityOnly => ctParityOnly
  | .dataBit i => bitMask i
  | .uncorrectable => ctUncorrectable

/-- The action for a syndrome: one read of the correction table (R64). -/
def correctionEntry (s : Nibble) : Byte :=
  romRead correctionTable (s &&& 0xF)

/-- `DECODE_BYTE(b, s)`: the lane's level and the byte after the operation (R68). -/
def decodeByte (b : Byte) (s : Nibble) : LaneLevel × Byte :=
  if s = 0 then (0, b)
  else if correctionEntry s = ctParityOnly then (1, b)
  else if correctionEntry s = ctUncorrectable then (3, b)
  else (1, b ^^^ correctionEntry s)

/-! ### Results and ports -/

/-- The decoder's result when a reference is absent: level 3, the bytes passed through (R70 step 1, R71 step 1; log 8). -/
def absentReferenceOut (b1 b0 : Byte) : DecOut :=
  { level := absentReferenceLevel, c1 := b1, c0 := b0 }

/-- The caller presents inputs to the encoder and holds them; `par` carries the result (R95, R96 d). -/
def driveEncoder (inputs : EncIn) (par : Byte) (s : State) : State :=
  { s with encIn := some inputs, par := some par }

/-- The caller presents inputs to the decoder and holds them; `level`, `c1`, `c0` carry the result (R95, R96 d). -/
def driveDecoder (inputs : DecIn) (out : DecOut) (s : State) : State :=
  { s with decIn := some inputs, decOut := some out }

end Sys2Proof.Machine
end

