-- ==== Sys2Proof/Machine/Caller.lean ====
section
/-! DEFINITION. The caller's side of each action (spec/95_test_vectors.md section 4.1; spec/10_state.md R19): the request it
forms from its cells, and what it takes back into them. The harness is the spec's notation and not hardware (D22). -/

namespace Sys2Proof.Machine

/-- The request that an action presents to a block; none for the channel's XOR. The harness's requests are the written forms
of R49 on the cells, the ignored fields 0. -/
def requestOfAction (s : State) : CallerAction → Option Request
  | .present r => some r
  | .enc1 => some (encode (AsmForm.enc1 s.cellB0).toInstr)
  | .enc2 => some (encode (AsmForm.enc2 s.cellB0 s.cellB1).toInstr)
  | .xor _ => none
  | .dec1 => some (encode (AsmForm.dec1 true s.cellB0 (loNibble s.cellP)).toInstr)
  | .dec1N => some (encode (AsmForm.dec1 false s.cellB0 (loNibble s.cellP)).toInstr)
  | .dec2 => some (encode (AsmForm.dec2 true true s.cellB0 s.cellB1 s.cellP).toInstr)

/-- The channel flips bits of one cell: `cell <- cell ^ imm`. -/
def hitCell (s : State) : ChannelHit → State
  | .b0 m => { s with cellB0 := s.cellB0 ^^^ m }
  | .b1 m => { s with cellB1 := s.cellB1 ^^^ m }
  | .p m => { s with cellP := s.cellP ^^^ m }
  | .l m => { s with cellL := s.cellL ^^^ m }

/-- `P <- par`. -/
def takeParity (s : State) : State :=
  match s.par with
  | none => s
  | some p => { s with cellP := p }

/-- `L <- level`. -/
def takeLevel (s : State) : State :=
  match s.decOut with
  | none => s
  | some o => { s with cellL := o.level }

/-- `B0 <- c0` (R96 c). -/
def takeFirstByte (s : State) : State :=
  match s.decOut with
  | none => s
  | some o => { s with cellB0 := o.c0 }

/-- `B1 <- c1` (R96 c). -/
def takeSecondByte (s : State) : State :=
  match s.decOut with
  | none => s
  | some o => { s with cellB1 := o.c1 }

/-- What the caller takes into its cells at the end of an action: nothing for a raw request (log 5), the harness's cells for
its statements. After DEC1N, `B0` "is left alone because the caller has no reference". -/
def afterAction (s : State) : CallerAction → State
  | .present _ => s
  | .enc1 => takeParity s
  | .enc2 => takeParity s
  | .xor hit => hitCell s hit
  | .dec1 => takeFirstByte (takeLevel s)
  | .dec1N => takeLevel s
  | .dec2 => takeSecondByte (takeFirstByte (takeLevel s))

/-- The state after a block has answered, changed by the caller; a stop stays a stop. -/
def thenNext (f : State → State) : Host.Outcome State Fault Refusal → Host.Outcome State Fault Refusal
  | .next s => .next (f s)
  | .fault r => .fault r
  | .refused r => .refused r

end Sys2Proof.Machine
end

