-- ==== Sys2Proof/Machine/Decoder.lean ====
section
/-! DEFINITION. The meanings of DEC1 and DEC2, the operations of `hamming_sec_decoder` (spec/41_decoder.md R70 to R73). -/

namespace Sys2Proof.Machine

/-- The outputs of DEC1, step by step (R70). `c1` is a copy of `b1`; `rp[7:4]` is not read. -/
def dec1Out (backend : Backend) (v0 : Bool) (rp b1 b0 : Byte) : DecOut :=
  if v0 = false then absentReferenceOut b1 b0
  else
    let lane := decodeByte b0 (syndrome backend b0 (loNibble rp))
    { level := laneLevelOnPort lane.1, c1 := b1, c0 := lane.2 }

/-- The outputs of DEC2, step by step (R71). -/
def dec2Out (backend : Backend) (v1 v0 : Bool) (rp b1 b0 : Byte) : DecOut :=
  if v0 = false ∨ v1 = false then absentReferenceOut b1 b0
  else
    let s8 := pairSyndrome backend b1 b0 rp
    if s8 = 0 then { level := 0, c1 := b1, c0 := b0 }
    else
      let lane0 := decodeByte b0 (loNibble s8)
      let lane1 := decodeByte b1 (hiNibble s8)
      { level := pairLevel lane0.1 lane1.1, c1 := lane1.2, c0 := lane0.2 }

/-- DEC1 (R70). -/
def execDec1 (v1 v0 : Bool) (rp b1 b0 : Byte) (s : State) : Host.Outcome State Fault Refusal :=
  .next (driveDecoder { pair := false, v1 := v1, v0 := v0, rp := rp, b1 := b1, b0 := b0 }
    (dec1Out s.config.decoder v0 rp b1 b0) s)

/-- DEC2 (R71). -/
def execDec2 (v1 v0 : Bool) (rp b1 b0 : Byte) (s : State) : Host.Outcome State Fault Refusal :=
  .next (driveDecoder { pair := true, v1 := v1, v0 := v0, rp := rp, b1 := b1, b0 := b0 }
    (dec2Out s.config.decoder v1 v0 rp b1 b0) s)

end Sys2Proof.Machine
end

