-- ==== Sys2Proof/Machine/Encoder.lean ====
section
/-! DEFINITION. The meanings of ENC1 and ENC2, the operations of `hamming_sec_encoder` (spec/40_encoder.md R58 to R60). -/

namespace Sys2Proof.Machine

/-- ENC1 (R58): `par[3:0] <- PAR(b0)`, `par[7:4] <- 0`; `b1` is ignored. -/
def execEnc1 (b1 b0 : Byte) (s : State) : Host.Outcome State Fault Refusal :=
  .next (driveEncoder { pair := false, b1 := b1, b0 := b0 } (singleParityByte (parityBy s.config.encoder b0)) s)

/-- ENC2 (R59): `par[3:0] <- PAR(b0)`, `par[7:4] <- PAR(b1)`. -/
def execEnc2 (b1 b0 : Byte) (s : State) : Host.Outcome State Fault Refusal :=
  .next (driveEncoder { pair := true, b1 := b1, b0 := b0 } (pairParityBy s.config.encoder b1 b0) s)

end Sys2Proof.Machine
end

