-- ==== Sys2Proof/Machine/Dispatch.lean ====
section
/-! DEFINITION. One arm per operation (spec/00_scope.md R3): each a call of its meaning. -/

namespace Sys2Proof.Machine

def exec (i : Instr) (s : State) : Host.Outcome State Fault Refusal :=
  match i with
  | .enc1 b1 b0 => Sys2Proof.Machine.execEnc1 b1 b0 s
  | .enc2 b1 b0 => Sys2Proof.Machine.execEnc2 b1 b0 s
  | .dec1 v1 v0 rp b1 b0 => Sys2Proof.Machine.execDec1 v1 v0 rp b1 b0 s
  | .dec2 v1 v0 rp b1 b0 => Sys2Proof.Machine.execDec2 v1 v0 rp b1 b0 s

end Sys2Proof.Machine
end

