-- ==== Sys2Proof/Machine/Step.lean ====
section
/-! DEFINITION. One step: the caller's next action, from the request it presents to the outputs it takes (spec/70_reset_and_hazards.md
R95). The block fetches nothing (spec/10_state.md R13); what stands for the fetch is the caller presenting a request word. -/

namespace Sys2Proof.Machine

/-- A request is evaluated by the block it is presented to; an action without one is only the channel's. -/
def answerRequest (request : Option Request) (s : State) : Host.Outcome State Fault Refusal :=
  match request with
  | none => .next s
  | some r => exec (decode r) s

/-- An action: the request formed from the cells, the block's answer, what the caller takes from it. -/
def act (action : CallerAction) (s : State) : Host.Outcome State Fault Refusal :=
  thenNext (fun t => afterAction t action) (answerRequest (requestOfAction s action) s)

/-- The caller's next action; with none left, no inputs are presented and there is no run (93_implementation_defined.md U8). -/
def step (s : State) : Host.Outcome State Fault Refusal :=
  match s.script with
  | [] => .refused .nothingPresented
  | action :: rest => act action { s with script := rest }

/-- The caller presents, before anything else it would do, the request that a word of the opcode table stands for; with a
word that stands for none, it does nothing. -/
def State.withFetchWord (s : State) (nbits w : Nat) : State :=
  match requestOfTableWord nbits w with
  | .ok r => { s with script := .present r :: s.script }
  | .error _ => { s with script := [] }

end Sys2Proof.Machine
end

