-- ==== Sys2Proof/Machine/Codeword.lean ====
section
/-! DEFINITION. The virtual 12-position codeword (spec/30_encoding.md R36) and errors on it. No port, wire or table holds it
(R36), so no meaning reads this file: it gives claims about the channel their words. -/

namespace Sys2Proof.Machine

/-- What a codeword position carries: a parity bit or a data bit (R36). -/
inductive Carrier where
  | check (j : Fin 4)
  | data (i : Fin 8)
deriving DecidableEq, Repr

/-- The codeword position of a carrier: `2 ^ j` for `p[j]`, `POS(i)` for `b[i]` (R35, R36, R50). -/
def positionOf : Carrier → Nibble
  | .check j => (1 : Nibble) <<< j.val
  | .data i => pos i

/-- The carriers in the order of their positions 1 to 12 (R36). -/
def codewordLayout : List Carrier :=
  [ .check 0, .check 1, .data 0, .check 2, .data 1, .data 2, .data 3, .check 3, .data 4, .data 5, .data 6, .data 7 ]

/-- The 12 bits of the codeword of a byte and a nibble, position 1 first (R36). -/
def codewordBits (b : Byte) (p : Nibble) : List Bool :=
  codewordLayout.map fun
    | .check j => p.getLsbD j
    | .data i => b.getLsbD i

/-- The data bits that flipping a position changes, as a mask. -/
def Carrier.dataMask : Carrier → Byte
  | .check _ => 0
  | .data i => bitMask i

/-- The parity bits that flipping a position changes, as a mask. -/
def Carrier.parityMask : Carrier → Nibble
  | .check j => (1 : Nibble) <<< j.val
  | .data _ => 0

/-- The data mask of at most one flipped position. -/
def flipDataMask : Option Carrier → Byte
  | none => 0
  | some c => c.dataMask

/-- The parity mask of at most one flipped position. -/
def flipParityMask : Option Carrier → Nibble
  | none => 0
  | some c => c.parityMask

end Sys2Proof.Machine
end

