-- ==== Sys2Proof/Safety.lean ====
section
/-! DEFINITION. The terms in which claims are made: the outputs as the spec's mathematics gives them (by `PAR` and `SMAP`, with
no table and no backend), what it means that the ports are settled, which levels are legal and which mean a usable payload. -/

namespace Sys2Proof.Machine

/-- What `par` is for given inputs, by `PAR` alone (R58, R59). -/
def encoderResponse (p : EncIn) : Byte :=
  if p.pair then combinedParityByte (parity p.b1) (parity p.b0) else singleParityByte (parity p.b0)

/-- The level a class leads to (R63). -/
def classLevel : SyndromeClass → LaneLevel
  | .noError => 0
  | .parityOnly => 1
  | .dataBit _ => 1
  | .uncorrectable => 3

/-- The byte after the operation, by the class of its syndrome (R68, last sentence). -/
def classByte (b : Byte) : SyndromeClass → Byte
  | .noError => b
  | .parityOnly => b
  | .dataBit i => b ^^^ bitMask i
  | .uncorrectable => b

/-- The class of a received byte with a received nibble (R62, R63). -/
def receivedClass (b : Byte) (rp4 : Nibble) : SyndromeClass :=
  syndromeMap (parity b ^^^ rp4)

/-- What the decoder's outputs are for given inputs, by `PAR` and `SMAP` alone, each lane by itself (R70, R71, R72). -/
def decoderResponse (p : DecIn) : DecOut :=
  let class0 := receivedClass p.b0 (loNibble p.rp)
  let class1 := receivedClass p.b1 (hiNibble p.rp)
  match p.pair, p.v0, p.v1 with
  | false, false, _ => { level := 3, c1 := p.b1, c0 := p.b0 }
  | false, true, _ => { level := laneLevelOnPort (classLevel class0), c1 := p.b1, c0 := classByte p.b0 class0 }
  | true, true, true =>
    { level := pairLevel (classLevel class0) (classLevel class1), c1 := classByte p.b1 class1, c0 := classByte p.b0 class0 }
  | true, _, _ => { level := 3, c1 := p.b1, c0 := p.b0 }

/-- "At every instant its outputs are the function of its present inputs" (R93): where inputs are presented, the outputs are
what the spec's functions give; where none are, they carry nothing (R17). -/
def State.PortsSettled (s : State) : Prop :=
  s.par = s.encIn.map encoderResponse ∧ s.decOut = s.decIn.map decoderResponse

/-- The levels DEC1 can report (R40). -/
def singleLevels : List Level := [0, 1, 3]

/-- The levels DEC2 can report (R73). -/
def pairLevels : List Level := [0, 1, 2, 3, 4, 6]

/-- A level that a caller may accept: anything below 3 (R73, R96 e). That the payload is then right needs at most one flipped
position per lane (R74, R75). -/
def acceptable (level : Level) : Bool :=
  level < 3

/-- The operation completes in `s` and leaves `par` on the encoder's output port. -/
def EncoderAnswers (i : Instr) (s : State) (par : Byte) : Prop :=
  ∃ t, exec i s = .next t ∧ t.par = some par

/-- The operation completes in `s` and leaves `out` on the decoder's output ports. -/
def DecoderAnswers (i : Instr) (s : State) (out : DecOut) : Prop :=
  ∃ t, exec i s = .next t ∧ t.decOut = some out

/-- A run that does not stop for the next `n` steps. -/
def runsFor (n : Nat) (s : State) : Prop :=
  match n with
  | 0 => True
  | k + 1 => ∃ t, step s = .next t ∧ runsFor k t

end Sys2Proof.Machine
end

