-- ==== Sys2Proof/Certificates/Slice0/Obligations.lean ====
section
/-! DEFINITION. The statements about the model that the provers settle. Each docstring names the rule or the section of spec/
that it formalises, and says where a clause rests on a decision of the spec or on a choice of the model. -/

open Sys2Proof Sys2Proof.Machine

/-! ### Encoding -/

/-- 30_encoding.md section 8 (R41, R43, R45; request words are the spec's decision D13): decoding an operation's request word
gives it back with every field, the ignored ones too, and so does decoding the bytes of the model's container (log 7). -/
def Obligations.DecodeOfEncodeIsIdentity : Prop :=
  ∀ i : Instr, decode (encode i) = i ∧ decodeBytes (bytesOfRequest (encode i)) = .ok i

/-- 30_encoding.md sections 8 and 10 (R41, R47): every bit pattern of both formats is a defined operation, and no bit of it is
lost; the container (log 7) carries every request. -/
def Obligations.EncodeOfDecodeIsIdentity : Prop :=
  ∀ r : Request, encode (decode r) = r ∧ requestOfBytes (bytesOfRequest r) = .ok r

/-- The model's own byte container (log 7): bytes decode exactly when they are well formed, they are then the bytes of the
instruction's request, and else they are refused by the name of what is wrong. -/
def Obligations.BytesDecodeOrAreRefusedByName : Prop :=
  ∀ bytes : List Byte,
    (requestBytesWellFormed bytes = true → ∃ i, decodeBytes bytes = .ok i ∧ bytesOfRequest (encode i) = bytes) ∧
    (requestBytesWellFormed bytes = false → (bytes.length = 3 ∨ bytes.length = 4) → decodeBytes bytes = .error .bitsAboveWord) ∧
    (bytes.length ≠ 3 → bytes.length ≠ 4 → decodeBytes bytes = .error .noSuchFormat)

/-- 30_encoding.md section 11 (R48, decision D13): every request selects exactly one row of the opcode table, the one that
bears the decoded operation's name. -/
def Obligations.EveryRequestSelectsItsOneRow : Prop :=
  ∀ r : Request, (opcodeTable.filter fun row => row.selects r).map OpcodeRow.mnemonic = [(decode r).mnemonic]

/-- 95_test_vectors.md sections 2 and 4: request words of the spec decode to the operations they are printed for. -/
def Obligations.PrintedRequestWordsDecode : Prop :=
  decode (.enc 0x000A5) = .enc1 0x00 0xA5 ∧
  decode (.enc 0x0AB01) = .enc1 0xAB 0x01 ∧
  decode (.enc 0x1FF00) = .enc2 0xFF 0x00 ∧
  decode (.dec 0x10300E5) = .dec1 false true 0x03 0x00 0xE5 ∧
  decode (.dec 0x3F3CCE5) = .dec1 true true 0xF3 0xCC 0xE5 ∧
  decode (.dec 0x730FF01) = .dec2 true true 0x30 0xFF 0x01 ∧
  decode (.dec 0x630FF01) = .dec2 true false 0x30 0xFF 0x01

/-- 30_encoding.md section 12 (R49, decision D14): the written forms are exactly the operations whose ignored fields are 0. -/
def Obligations.WrittenFormsAreTheCanonicalOperations : Prop :=
  ∀ i : Instr, i.canonical = true ↔ ∃ form : AsmForm, form.toInstr = i

/-! ### The parity function and its backends -/

/-- R51: `PAR(b)` is the XOR, over the set bits of `b`, of their position constants; `PAR(0x00) = 0`; and it is the reference
that every backend equals. -/
def Obligations.ParityIsXorOfSetBitPositions : Prop :=
  (∀ b : Byte, parity b =
    (if b.getLsbD 0 then 3 else 0) ^^^ (if b.getLsbD 1 then 5 else 0) ^^^ (if b.getLsbD 2 then 6 else 0) ^^^
    (if b.getLsbD 3 then 7 else 0) ^^^ (if b.getLsbD 4 then 9 else 0) ^^^ (if b.getLsbD 5 then 10 else 0) ^^^
    (if b.getLsbD 6 then 11 else 0) ^^^ (if b.getLsbD 7 then 12 else 0)) ∧
  parity 0x00 = 0 ∧
  ∀ (backend : Backend) (b : Byte), parityBy backend b = parity b

/-- 40_encoder.md section 1 (R52, marked derived): the four parity-check equations. -/
def Obligations.ParityCheckEquations : Prop :=
  ∀ b : Byte,
    (parity b).getLsbD 0 = (b.getLsbD 0 ^^ b.getLsbD 1 ^^ b.getLsbD 3 ^^ b.getLsbD 4 ^^ b.getLsbD 6) ∧
    (parity b).getLsbD 1 = (b.getLsbD 0 ^^ b.getLsbD 2 ^^ b.getLsbD 3 ^^ b.getLsbD 5 ^^ b.getLsbD 6) ∧
    (parity b).getLsbD 2 = (b.getLsbD 1 ^^ b.getLsbD 2 ^^ b.getLsbD 3 ^^ b.getLsbD 7) ∧
    (parity b).getLsbD 3 = (b.getLsbD 4 ^^ b.getLsbD 5 ^^ b.getLsbD 6 ^^ b.getLsbD 7)

/-- 40_encoder.md section 1 (R53, marked derived): `PAR` is linear over XOR; flipping one data bit XORs its position in; the
positions are nonzero, pairwise different and no powers of two. -/
def Obligations.ParityIsLinear : Prop :=
  (∀ a c : Byte, parity (a ^^^ c) = parity a ^^^ parity c) ∧
  (∀ (b : Byte) (i : Fin 8), parity (b ^^^ bitMask i) = parity b ^^^ pos i) ∧
  (∀ i j : Fin 8, pos i = pos j → i = j) ∧
  ∀ i : Fin 8, pos i ≠ 0 ∧ ∀ j : Fin 4, pos i ≠ (1 : Nibble) <<< j.val

/-- 20_memory.md section 2 (R21, R26, marked derived): the full table holds `PAR`, its last entry is 0x3 (90_conflicts.md C1), and
its image is 256 bytes with the nibble in bits 3..0 and zero above. -/
def Obligations.FullTableHoldsParity : Prop :=
  (∀ b : Byte, romRead fullLut b = parity b) ∧
  romRead fullLut 0xFF = 0x3 ∧
  (byteImage fullLut).length = 256 ∧
  ∀ x ∈ byteImage fullLut, x.extractLsb' 4 4 = 0

/-- R55: the `split_nibble_lut` backend is two reads, at `b[3:0]` and `b[7:4]`, of tables that hold the parities of the 16 low
and of the 16 high nibbles, and one XOR; the tables occupy 32 bytes. -/
def Obligations.SplitBackendXorsTwoReads : Prop :=
  (∀ b : Byte, parityBy .splitNibbleLut b =
    romRead lowLut (b.extractLsb' 0 4) ^^^ romRead highLut (b.extractLsb' 4 4)) ∧
  (∀ n : Nibble, romRead lowLut n = parity (n.setWidth 8) ∧ romRead highLut n = parity (n.setWidth 8 <<< 4)) ∧
  (byteImage lowLut ++ byteImage highLut).length = 32

/-- 40_encoder.md section 2 (R56; that `b[0]` comes first is the spec's decision D17): the `serial_xor` accumulator chain. -/
def Obligations.SerialBackendIsAccumulatorChain : Prop :=
  ∀ b : Byte, serialAcc b 0 = 0 ∧
    (∀ i : Fin 8, serialAcc b (i.val + 1) = if b.getLsbD i.val then serialAcc b i.val ^^^ pos i else serialAcc b i.val) ∧
    parityBy .serialXor b = serialAcc b 8

/-- R57: for every byte the three backends return the same nibble, `PAR(b)`, and no operation's result depends on which
backends are built: run with any others, each operation reaches the same state but for the choice itself. -/
def Obligations.BackendsAgreeAndAreUnobservable : Prop :=
  (∀ b : Byte, parityBy .fullLut b = parityBy .splitNibbleLut b ∧ parityBy .splitNibbleLut b = parityBy .serialXor b ∧
    parityBy .serialXor b = parity b) ∧
  ∀ (i : Instr) (s : State) (other : Config), ∃ t : State,
    exec i s = .next t ∧ exec i { s with config := other } = .next { t with config := other }

/-- 95_test_vectors.md section 3 (Q10, derived): a whole step, the caller's side included, does not depend on the backends. -/
def Obligations.StepDoesNotDependOnBackends : Prop :=
  ∀ (s : State) (other : Config),
    step { s with config := other } = thenNext (fun t => { t with config := other }) (step s)

/-! ### ENC1 and ENC2 -/

/-- 40_encoder.md section 3 (R58; that `par[7:4]` is 0 is the spec's decision D7, log 9): ENC1 completes in every state with
`PAR(b0)` on `par`, whatever `b1` is, and changes nothing but the encoder's ports. -/
def Obligations.Enc1AnswersParity : Prop :=
  ∀ (s : State) (b1 b0 : Byte),
    exec (.enc1 b1 b0) s =
      .next { s with encIn := some { pair := false, b1 := b1, b0 := b0 }, par := some ((parity b0).setWidth 8) }

/-- R59: ENC2 completes in every state with the combined parity byte on `par` and changes nothing but the encoder's ports; its
request has `pair` = 1; its nibbles are what ENC1 gives for each byte; swapping the bytes swaps them; and the example. -/
def Obligations.Enc2AnswersCombinedParity : Prop :=
  (∀ (s : State) (b1 b0 : Byte),
    exec (.enc2 b1 b0) s =
      .next { s with
        encIn := some { pair := true, b1 := b1, b0 := b0 }
        par := some (((parity b1).setWidth 8 <<< 4) ||| (parity b0).setWidth 8) }) ∧
  (∀ b1 b0 : Byte, ∃ w : BitVec 17, encode (.enc2 b1 b0) = .enc w ∧ w.getLsbD 16 = true) ∧
  (∀ (s : State) (b1 b0 x y : Byte), ∃ pp p0 p1 swapped : Byte,
    EncoderAnswers (.enc2 b1 b0) s pp ∧ EncoderAnswers (.enc1 x b0) s p0 ∧ EncoderAnswers (.enc1 y b1) s p1 ∧
    EncoderAnswers (.enc2 b0 b1) s swapped ∧
    pp.extractLsb' 0 4 = parity b0 ∧ pp.extractLsb' 4 4 = parity b1 ∧
    pp.extractLsb' 0 4 = p0.extractLsb' 0 4 ∧ pp.extractLsb' 4 4 = p1.extractLsb' 0 4 ∧
    swapped.extractLsb' 0 4 = pp.extractLsb' 4 4 ∧ swapped.extractLsb' 4 4 = pp.extractLsb' 0 4) ∧
  encode (.enc2 0xFF 0x00) = .enc 0x1FF00 ∧ ∀ s : State, EncoderAnswers (.enc2 0xFF 0x00) s 0x30

/-- R60: both encode operations are pure and total: the one output is a function of the request word alone, and nothing else
changes but that the request stands on the encoder's inputs; no outcome level is touched. -/
def Obligations.EncodersArePureAndTotal : Prop :=
  ∃ f : BitVec 17 → Byte, ∀ (w : BitVec 17) (s : State),
    exec (decode (.enc w)) s = .next { s with encIn := some (encInOfWord w), par := some (f w) }

/-- The frame of ENC1 and ENC2 (40_encoder.md section 3; 10_state.md section 3): the decoder's ports, the caller's cells, what the
caller does next and the backends are unchanged. -/
def Obligations.EncodersLeaveTheRestAlone : Prop :=
  ∀ (b1 b0 : Byte) (i : Instr) (s t : State), i = .enc1 b1 b0 ∨ i = .enc2 b1 b0 → exec i s = .next t →
    t.config = s.config ∧ t.decIn = s.decIn ∧ t.decOut = s.decOut ∧ t.cellB0 = s.cellB0 ∧ t.cellB1 = s.cellB1 ∧
    t.cellP = s.cellP ∧ t.cellL = s.cellL ∧ t.script = s.script

/-! ### The syndrome and the correction table -/

/-- R62: the syndrome is the recomputed parity XOR the received one, whichever backend recomputes it; for a pair, it is
`{PAR(b1), PAR(b0)} ^ rp`, its nibbles the syndromes of the two lanes. -/
def Obligations.SyndromeIsRecomputedXorReceived : Prop :=
  ∀ backend : Backend,
    (∀ (b : Byte) (rp4 : Nibble), syndrome backend b rp4 = parity b ^^^ rp4) ∧
    ∀ b1 b0 rp : Byte,
      pairSyndrome backend b1 b0 rp = (parity b1 ++ parity b0) ^^^ rp ∧
      (pairSyndrome backend b1 b0 rp).extractLsb' 0 4 = syndrome backend b0 (rp.extractLsb' 0 4) ∧
      (pairSyndrome backend b1 b0 rp).extractLsb' 4 4 = syndrome backend b1 (rp.extractLsb' 4 4)

/-- 41_decoder.md section 1 (R66, marked derived): the syndrome depends only on what was flipped; one flipped position gives its
own number, which is never 0, and the twelve numbers differ. -/
def Obligations.SyndromeDependsOnlyOnFlips : Prop :=
  (∀ (backend : Backend) (d e : Byte) (f : Nibble), syndrome backend (d ^^^ e) (parity d ^^^ f) = parity e ^^^ f) ∧
  (∀ (backend : Backend) (d : Byte) (c : Carrier),
    syndrome backend (d ^^^ c.dataMask) (parity d ^^^ c.parityMask) = positionOf c) ∧
  (∀ c : Carrier, positionOf c ≠ 0) ∧
  ∀ c c' : Carrier, positionOf c = positionOf c' → c = c'

/-- R63: the class of each of the sixteen syndromes, the codeword position it names, and the level it leads to. -/
def Obligations.SyndromeClassesAsTabled : Prop :=
  (∀ s : Nibble, syndromeMap s = .noError ↔ s = 0) ∧
  (∀ s : Nibble, s ∈ [1, 2, 4, 8] → syndromeMap s = .parityOnly ∧ ∃ j : Fin 4, positionOf (.check j) = s) ∧
  (syndromeMap 3 = .dataBit 0 ∧ syndromeMap 5 = .dataBit 1 ∧ syndromeMap 6 = .dataBit 2 ∧ syndromeMap 7 = .dataBit 3 ∧
    syndromeMap 9 = .dataBit 4 ∧ syndromeMap 10 = .dataBit 5 ∧ syndromeMap 11 = .dataBit 6 ∧ syndromeMap 12 = .dataBit 7) ∧
  (∀ i : Fin 8, syndromeMap (pos i) = .dataBit i) ∧
  (∀ s : Nibble, s ∈ [13, 14, 15] → syndromeMap s = .uncorrectable) ∧
  classLevel .noError = 0 ∧ classLevel .parityOnly = 1 ∧ (∀ i, classLevel (.dataBit i) = 1) ∧ classLevel .uncorrectable = 3

/-- 41_decoder.md sections 2 and 3 (R65, R67, marked derived; the sentinel bytes are the spec's decision D9, log 11): `CT` stores
`SMAP`, entry by entry, and the kinds of entry are told apart by their bytes. -/
def Obligations.CorrectionTableStoresSyndromeMap : Prop :=
  (∀ s : Nibble, correctionEntry s = entryOfClass (syndromeMap s)) ∧
  (∀ s : Nibble, correctionEntry s = 0x00 ↔ syndromeMap s = .noError) ∧
  (∀ s : Nibble, correctionEntry s = 0xFE ↔ syndromeMap s = .parityOnly) ∧
  (∀ s : Nibble, correctionEntry s = 0xFF ↔ syndromeMap s = .uncorrectable) ∧
  ∀ (s : Nibble) (i : Fin 8), correctionEntry s = (1 : Byte) <<< i.val ↔ syndromeMap s = .dataBit i

/-- 41_decoder.md section 4 (R68; the sentinel bytes are the spec's decision D9, log 11): `DECODE_BYTE`, by its steps over the
correction table, and in terms of `SMAP`. -/
def Obligations.DecodeByteFollowsTableAndMap : Prop :=
  ∀ (b : Byte) (s : Nibble),
    (s = 0 → decodeByte b s = (0, b)) ∧
    (s ≠ 0 → romRead correctionTable (s &&& 0xF) = 0xFE → decodeByte b s = (1, b)) ∧
    (s ≠ 0 → romRead correctionTable (s &&& 0xF) = 0xFF → decodeByte b s = (3, b)) ∧
    (s ≠ 0 → romRead correctionTable (s &&& 0xF) ≠ 0xFE → romRead correctionTable (s &&& 0xF) ≠ 0xFF →
      decodeByte b s = (1, b ^^^ romRead correctionTable (s &&& 0xF))) ∧
    (syndromeMap s = .noError → decodeByte b s = (0, b)) ∧
    (syndromeMap s = .parityOnly → decodeByte b s = (1, b)) ∧
    (∀ i : Fin 8, syndromeMap s = .dataBit i → decodeByte b s = (1, b ^^^ ((1 : Byte) <<< i.val))) ∧
    (syndromeMap s = .uncorrectable → decodeByte b s = (3, b))

/-! ### DEC1 and DEC2 -/

/-- 41_decoder.md section 5 (R70; that `c1` = `b1`, and `c0` = `b0` when the reference is absent, are the spec's decisions D7
and D6, log 8 and 9): DEC1 completes in every state with these outputs and changes nothing but the decoder's ports. -/
def Obligations.Dec1AnswersByClass : Prop :=
  ∀ (s : State) (v1 v0 : Bool) (rp b1 b0 : Byte),
    exec (.dec1 v1 v0 rp b1 b0) s =
      .next { s with
        decIn := some { pair := false, v1 := v1, v0 := v0, rp := rp, b1 := b1, b0 := b0 }
        decOut := some (
          if v0 = true then
            { level := (classLevel (syndromeMap (parity b0 ^^^ rp.extractLsb' 0 4))).setWidth 3
              c1 := b1
              c0 := classByte b0 (syndromeMap (parity b0 ^^^ rp.extractLsb' 0 4)) }
          else { level := 3, c1 := b1, c0 := b0 }) }

/-- 41_decoder.md section 5 (R71; that an absent reference passes both bytes through is the spec's decision D6 and D23, log 8):
DEC2 completes in every state with these outputs, each lane by its own syndrome and the levels added, and changes nothing but
the decoder's ports. -/
def Obligations.Dec2AnswersLaneByLane : Prop :=
  ∀ (s : State) (v1 v0 : Bool) (rp b1 b0 : Byte),
    exec (.dec2 v1 v0 rp b1 b0) s =
      .next { s with
        decIn := some { pair := true, v1 := v1, v0 := v0, rp := rp, b1 := b1, b0 := b0 }
        decOut := some (
          if v0 = true ∧ v1 = true then
            { level := (classLevel (syndromeMap (parity b0 ^^^ rp.extractLsb' 0 4))).setWidth 3 +
                (classLevel (syndromeMap (parity b1 ^^^ rp.extractLsb' 4 4))).setWidth 3
              c1 := classByte b1 (syndromeMap (parity b1 ^^^ rp.extractLsb' 4 4))
              c0 := classByte b0 (syndromeMap (parity b0 ^^^ rp.extractLsb' 0 4)) }
          else { level := 3, c1 := b1, c0 := b0 }) }

/-- R77: both decode operations are total and deterministic: for every request word exactly one response word, a function of
the request alone; nothing else changes but that the request stands on the decoder's inputs. -/
def Obligations.DecodersAreTotalAndDeterministic : Prop :=
  ∃ f : BitVec 27 → BitVec 19, ∀ (w : BitVec 27) (s : State), ∃ out : DecOut,
    decRspWord out = f w ∧
    exec (decode (.dec w)) s = .next { s with decIn := some (decInOfWord w), decOut := some out }

/-- The frame of DEC1 and DEC2 (41_decoder.md section 5; 10_state.md section 3): the encoder's ports, the caller's cells, what the
caller does next and the backends are unchanged. -/
def Obligations.DecodersLeaveTheRestAlone : Prop :=
  ∀ (v1 v0 : Bool) (rp b1 b0 : Byte) (i : Instr) (s t : State), i = .dec1 v1 v0 rp b1 b0 ∨ i = .dec2 v1 v0 rp b1 b0 →
    exec i s = .next t →
    t.config = s.config ∧ t.encIn = s.encIn ∧ t.par = s.par ∧ t.cellB0 = s.cellB0 ∧ t.cellB1 = s.cellB1 ∧
    t.cellP = s.cellP ∧ t.cellL = s.cellL ∧ t.script = s.script

/-- 60_exceptions.md section 3 (R84): the order in which a decode operation's conditions are decided: an absent reference first,
then a zero syndrome, then the class; for a pair, then each lane, added. An absent reference wins over a matching parity. -/
def Obligations.ConditionsAreDecidedInOrder : Prop :=
  ∀ (s : State) (v1 v0 : Bool) (rp b1 b0 : Byte),
    (∃ out, DecoderAnswers (.dec1 v1 v0 rp b1 b0) s out ∧
      (v0 = false → out.level = 3) ∧
      (v0 = true → parity b0 ^^^ rp.extractLsb' 0 4 = 0 → out.level = 0) ∧
      (v0 = true → parity b0 ^^^ rp.extractLsb' 0 4 ≠ 0 →
        out.level = (classLevel (syndromeMap (parity b0 ^^^ rp.extractLsb' 0 4))).setWidth 3)) ∧
    (∃ out, DecoderAnswers (.dec1 v1 false ((parity b0).setWidth 8) b1 b0) s out ∧ out.level = 3) ∧
    ∃ out, DecoderAnswers (.dec2 v1 v0 rp b1 b0) s out ∧
      (v0 = false ∨ v1 = false → out.level = 3) ∧
      (v0 = true → v1 = true → (parity b1 ++ parity b0) ^^^ rp = 0 → out.level = 0) ∧
      (v0 = true → v1 = true → (parity b1 ++ parity b0) ^^^ rp ≠ 0 →
        out.level = (classLevel (syndromeMap (parity b0 ^^^ rp.extractLsb' 0 4))).setWidth 3 +
          (classLevel (syndromeMap (parity b1 ^^^ rp.extractLsb' 4 4))).setWidth 3)

/-- R82: every value of `level` and every way to reach it, for DEC1 by its syndrome and for DEC2 by its two lanes' levels. -/
def Obligations.EveryLevelAndItsCauses : Prop :=
  ∀ (s : State) (v1 v0 : Bool) (rp b1 b0 : Byte),
    (∃ out, DecoderAnswers (.dec1 v1 v0 rp b1 b0) s out ∧
      (out.level = 0 ↔ v0 = true ∧ parity b0 ^^^ rp.extractLsb' 0 4 = 0) ∧
      (out.level = 1 ↔ v0 = true ∧ 1 ≤ (parity b0 ^^^ rp.extractLsb' 0 4).toNat ∧
        (parity b0 ^^^ rp.extractLsb' 0 4).toNat ≤ 12) ∧
      (out.level = 3 ↔ v0 = false ∨ 13 ≤ (parity b0 ^^^ rp.extractLsb' 0 4).toNat) ∧
      out.level ∈ singleLevels) ∧
    ∃ out, DecoderAnswers (.dec2 v1 v0 rp b1 b0) s out ∧
      (¬(v0 = true ∧ v1 = true) → out.level = 3) ∧
      (v0 = true → v1 = true → ∃ l0 l1 : LaneLevel,
        l0 = classLevel (syndromeMap (parity b0 ^^^ rp.extractLsb' 0 4)) ∧
        l1 = classLevel (syndromeMap (parity b1 ^^^ rp.extractLsb' 4 4)) ∧
        (out.level = 0 ↔ l0 = 0 ∧ l1 = 0) ∧
        (out.level = 1 ↔ l0 = 1 ∧ l1 = 0 ∨ l0 = 0 ∧ l1 = 1) ∧
        (out.level = 2 ↔ l0 = 1 ∧ l1 = 1) ∧
        (out.level = 3 ↔ l0 = 3 ∧ l1 = 0 ∨ l0 = 0 ∧ l1 = 3) ∧
        (out.level = 4 ↔ l0 = 1 ∧ l1 = 3 ∨ l0 = 3 ∧ l1 = 1) ∧
        (out.level = 6 ↔ l0 = 3 ∧ l1 = 3)) ∧
      out.level ∈ pairLevels

/-- 60_exceptions.md section 4 (R85): a level-3 result of DEC1 leaves a byte it was given as received (with no reference there
is no byte, log 8); in DEC2 a lane that cannot be corrected is left as received while the other lane is output as it would be
by itself; and nothing but the decoder's ports changes: no state is saved, no mode switched, no control transferred. -/
def Obligations.LevelThreeChangesNothing : Prop :=
  ∀ (s : State) (v1 v0 : Bool) (rp b1 b0 : Byte),
    (∃ t out, exec (.dec1 v1 v0 rp b1 b0) s = .next t ∧ t.decOut = some out ∧
      (v0 = true → out.level = 3 → out.c0 = b0) ∧ t = { s with decIn := t.decIn, decOut := t.decOut }) ∧
    ∃ t out, exec (.dec2 v1 v0 rp b1 b0) s = .next t ∧ t.decOut = some out ∧
      t = { s with decIn := t.decIn, decOut := t.decOut } ∧
      (v0 = true → v1 = true → syndromeMap (parity b0 ^^^ rp.extractLsb' 0 4) = .uncorrectable →
        out.c0 = b0 ∧ out.c1 = classByte b1 (syndromeMap (parity b1 ^^^ rp.extractLsb' 4 4))) ∧
      (v0 = true → v1 = true → syndromeMap (parity b1 ^^^ rp.extractLsb' 4 4) = .uncorrectable →
        out.c1 = b1 ∧ out.c0 = classByte b0 (syndromeMap (parity b0 ^^^ rp.extractLsb' 0 4)))

/-- 41_decoder.md section 5 (R72, marked derived): the two lanes of DEC2 are two DEC1s, their levels added. -/
def Obligations.PairLanesAreTwoSingles : Prop :=
  ∀ (s : State) (w0 w1 : Bool) (rp b1 b0 x y : Byte), ∃ out out0 out1 : DecOut,
    DecoderAnswers (.dec2 true true rp b1 b0) s out ∧
    DecoderAnswers (.dec1 w0 true ((rp.extractLsb' 0 4).setWidth 8) x b0) s out0 ∧
    DecoderAnswers (.dec1 w1 true ((rp.extractLsb' 4 4).setWidth 8) y b1) s out1 ∧
    out.c0 = out0.c0 ∧ out.c1 = out1.c0 ∧ out.level = out0.level + out1.level

/-- 41_decoder.md section 4 (R69, in part): a single-byte level of 1 covers a corrected data bit and an ignored parity bit, told
apart by comparing `c0` with `b0`; level 0 is clean, level 3 unfixable, level 2 never occurs. Section 5 (R70): an absent
reference gives level 3. That the payload is correct at level 1 needs at most one flip: see `OneFlipIsRestored`. -/
def Obligations.LevelOneCoversTwoEvents : Prop :=
  ∀ (s : State) (v1 : Bool) (rp b1 b0 : Byte), ∃ out, DecoderAnswers (.dec1 v1 true rp b1 b0) s out ∧
    (out.level = 0 ↔ syndromeMap (parity b0 ^^^ rp.extractLsb' 0 4) = .noError) ∧
    (out.level = 1 ∧ out.c0 ≠ b0 ↔ ∃ i, syndromeMap (parity b0 ^^^ rp.extractLsb' 0 4) = .dataBit i) ∧
    (out.level = 1 ∧ out.c0 = b0 ↔ syndromeMap (parity b0 ^^^ rp.extractLsb' 0 4) = .parityOnly) ∧
    (out.level = 3 ↔ syndromeMap (parity b0 ^^^ rp.extractLsb' 0 4) = .uncorrectable) ∧
    out.level ≠ 2 ∧
    ∃ absent, DecoderAnswers (.dec1 v1 false rp b1 b0) s absent ∧ absent.level = 3

/-- 95_test_vectors.md section 3 (Q7, derived): no decode operation changes more than one bit of a byte. -/
def Obligations.AtMostOneBitOfAByteChanges : Prop :=
  ∀ (s : State) (v1 v0 : Bool) (rp b1 b0 : Byte) (i : Instr), i = .dec1 v1 v0 rp b1 b0 ∨ i = .dec2 v1 v0 rp b1 b0 →
    ∃ out, DecoderAnswers i s out ∧
      (out.c0 = b0 ∨ ∃ k : Fin 8, out.c0 = b0 ^^^ bitMask k) ∧ (out.c1 = b1 ∨ ∃ k : Fin 8, out.c1 = b1 ^^^ bitMask k)

/-- 41_decoder.md section 6 (R76, marked derived): decoding a corrected byte again with the same parity is clean; after a
parity-only result or a level 3, the same result comes again. -/
def Obligations.DecodingAgain : Prop :=
  ∀ (s s' : State) (v1 : Bool) (rp b1 b0 : Byte), ∃ out again : DecOut,
    DecoderAnswers (.dec1 v1 true rp b1 b0) s out ∧ DecoderAnswers (.dec1 v1 true rp b1 out.c0) s' again ∧
    again.c0 = out.c0 ∧
    (out.level = 1 → out.c0 ≠ b0 → again.level = 0) ∧
    (out.level = 1 → out.c0 = b0 → again.level = 1) ∧
    (out.level = 3 → again.level = 3)

/-- 41_decoder.md section 5 (R73, marked derived) and 70_reset_and_hazards.md section 4 (R96 e): with both references present, a
pair level below 3 means exactly that neither lane is uncorrectable. -/
def Obligations.AcceptablePairLevelMeansNoUncorrectableLane : Prop :=
  ∀ (s : State) (rp b1 b0 : Byte), ∃ out, DecoderAnswers (.dec2 true true rp b1 b0) s out ∧
    (acceptable out.level = true ↔
      syndromeMap (parity b0 ^^^ rp.extractLsb' 0 4) ≠ .uncorrectable ∧
      syndromeMap (parity b1 ^^^ rp.extractLsb' 4 4) ≠ .uncorrectable)

/-! ### Encoder, channel, decoder -/

/-- 41_decoder.md section 6 (R74, marked derived): encode a byte, let the channel flip at most one of the 12 positions, decode:
the byte is restored, with level 0 if nothing was flipped and 1 otherwise, whatever the two backends are. -/
def Obligations.OneFlipIsRestored : Prop :=
  ∀ (s : State) (d x y : Byte) (v1 : Bool) (flip : Option Carrier), ∃ (t : State) (p : Byte) (out : DecOut),
    exec (.enc1 x d) s = .next t ∧ t.par = some p ∧
    DecoderAnswers (.dec1 v1 true (p ^^^ (flipParityMask flip).setWidth 8) y (d ^^^ flipDataMask flip)) t out ∧
    out.c0 = d ∧ out.level = if flip = none then 0 else 1

/-- 41_decoder.md section 6 (R74, its last sentence, marked derived): the same for a pair, with at most one flipped position in each
lane; the level counts the lanes that were hit. -/
def Obligations.OneFlipPerLaneIsRestored : Prop :=
  ∀ (s : State) (d0 d1 : Byte) (flip0 flip1 : Option Carrier), ∃ (t : State) (pp : Byte) (out : DecOut),
    exec (.enc2 d1 d0) s = .next t ∧ t.par = some pp ∧
    DecoderAnswers (.dec2 true true (pp ^^^ combinedParityByte (flipParityMask flip1) (flipParityMask flip0))
      (d1 ^^^ flipDataMask flip1) (d0 ^^^ flipDataMask flip0)) t out ∧
    out.c0 = d0 ∧ out.c1 = d1 ∧
    out.level = (if flip0 = none then 0 else 1) + (if flip1 = none then 0 else 1)

/-- 41_decoder.md section 6 (R75, marked derived; 90_conflicts.md C2): after two flipped positions the byte is never restored:
either level 3 with the byte as received, or level 1 with a wrong byte. -/
def Obligations.TwoFlipsAreNeverRestored : Prop :=
  ∀ (s : State) (d x y : Byte) (v1 : Bool) (c c' : Carrier), c ≠ c' → ∃ (t : State) (p : Byte) (out : DecOut),
    exec (.enc1 x d) s = .next t ∧ t.par = some p ∧
    DecoderAnswers (.dec1 v1 true (p ^^^ (c.parityMask ^^^ c'.parityMask).setWidth 8) y (d ^^^ c.dataMask ^^^ c'.dataMask)) t out ∧
    out.c0 ≠ d ∧ (out.level = 3 ∧ out.c0 = d ^^^ c.dataMask ^^^ c'.dataMask ∨ out.level = 1)

/-- 41_decoder.md sections 1 and 6 (R66, R75, the counts, marked derived): of the 66 pairs of positions 15 give an uncorrectable
syndrome, 18 a parity-only one and 33 a data-bit one, and 17 of the 220 triples give syndrome 0. -/
def Obligations.CountsOfFlipPatterns : Prop :=
  let pairs := codewordLayout.sublistsLen 2
  let syndromeOf := fun carriers : List Carrier => (carriers.map positionOf).foldr (· ^^^ ·) 0
  pairs.length = 66 ∧
  (pairs.filter fun c => syndromeMap (syndromeOf c) = .uncorrectable).length = 15 ∧
  (pairs.filter fun c => syndromeMap (syndromeOf c) = .parityOnly).length = 18 ∧
  (pairs.filter fun c => ∃ i, syndromeMap (syndromeOf c) = .dataBit i).length = 33 ∧
  (codewordLayout.sublistsLen 3).length = 220 ∧
  ((codewordLayout.sublistsLen 3).filter fun c => syndromeOf c = 0).length = 17

/-! ### The whole machine -/

/-- R80: no operation raises an exception: every operation completes for every input in every state and leaves its result on its
block's outputs, a parity byte for an encode and a level for a decode; an absent reference is reported by the level 3. -/
def Obligations.EveryOperationCompletes : Prop :=
  (∀ (i : Instr) (s : State), ∃ t, exec i s = .next t) ∧
  (∀ (s : State) (b1 b0 : Byte), (∃ par, EncoderAnswers (.enc1 b1 b0) s par) ∧ ∃ par, EncoderAnswers (.enc2 b1 b0) s par) ∧
  ∀ (s : State) (v1 v0 : Bool) (rp b1 b0 : Byte),
    (∃ out, DecoderAnswers (.dec1 v1 v0 rp b1 b0) s out) ∧
    (∃ out, DecoderAnswers (.dec2 v1 v0 rp b1 b0) s out) ∧
    (∃ out, DecoderAnswers (.dec1 v1 false rp b1 b0) s out ∧ out.level = 3) ∧
    (v0 = false ∨ v1 = false → ∃ out, DecoderAnswers (.dec2 v1 v0 rp b1 b0) s out ∧ out.level = 3)

/-- 10_state.md section 1 and 70_reset_and_hazards.md section 4 (R10, R99): what a block answers does not depend on any earlier
operation: two states, however they came about, give the same outputs for the same operation. -/
def Obligations.AnswersIgnoreHistory : Prop :=
  ∀ (s s' : State),
    (∀ (w : BitVec 17) (t t' : State), exec (decode (.enc w)) s = .next t → exec (decode (.enc w)) s' = .next t' →
      t.encIn = t'.encIn ∧ t.par = t'.par) ∧
    ∀ (w : BitVec 27) (t t' : State), exec (decode (.dec w)) s = .next t → exec (decode (.dec w)) s' = .next t' →
      t.decIn = t'.decIn ∧ t.decOut = t'.decOut

/-- 20_memory.md section 8 (R32): an encode and a decode operation on their two blocks give the same state in either order. -/
def Obligations.BlocksCommute : Prop :=
  ∀ (s : State) (w : BitVec 17) (w' : BitVec 27), ∃ t t' u : State,
    exec (decode (.enc w)) s = .next t ∧ exec (decode (.dec w')) t = .next u ∧
    exec (decode (.dec w')) s = .next t' ∧ exec (decode (.enc w)) t' = .next u

/-- An operation begins when the caller presents a request (70_reset_and_hazards.md section 3, R95, decision D26): such a step is
the operation the request decodes to. The action `present`, the script it is taken off, and that a raw request leaves the
caller's cells alone are the model's choice (log 5). -/
def Obligations.StepRunsThePresentedRequest : Prop :=
  ∀ (s : State) (r : Request) (rest : List CallerAction) (i : Instr), s.script = .present r :: rest → decode r = i →
    step s = exec i { s with script := rest }

/-- The model's own (log 5, log 7): a word of the opcode table that decodes runs as the very next operation, in any state. -/
def Obligations.TableWordRunsNext : Prop :=
  ∀ (s : State) (nbits w : Nat) (i : Instr), decodeTableWord nbits w = some i → step (s.withFetchWord nbits w) = exec i s

/-- The model's own (log 5): a step stops only when the caller does nothing next, and then under that one name; else it takes
one action off what the caller does next and keeps the backends. So a run lasts exactly as long as the script. -/
def Obligations.RunsLastAsLongAsTheScript : Prop :=
  (∀ s : State, s.script = [] → step s = .refused .nothingPresented) ∧
  (∀ (s : State) (action : CallerAction) (rest : List CallerAction), s.script = action :: rest →
    ∃ t, step s = .next t ∧ t.script = rest ∧ t.config = s.config) ∧
  ∀ (s : State) (n : Nat), runsFor n s ↔ n ≤ s.script.length

/-- 70_reset_and_hazards.md section 1 (R93, decision D2): "At every instant its outputs are the function of its present inputs".
Every step, whatever the caller does, keeps the outputs of both blocks equal to the spec's functions of the inputs. -/
def Obligations.StepKeepsPortsSettled : Prop :=
  ∀ s t : State, s.PortsSettled → step s = .next t → t.PortsSettled

/-- 10_state.md section 5 (R17): at reset no inputs are presented and the outputs carry nothing, so the ports are settled. -/
def Obligations.ResetPortsCarryNothing : Prop :=
  State.reset.encIn = none ∧ State.reset.par = none ∧ State.reset.decIn = none ∧ State.reset.decOut = none ∧
  State.reset.PortsSettled

/-! ### The caller's statements -/

/-- 95_test_vectors.md section 4.1: the harness's ENC1 and ENC2 leave the parity of the cells in `P`. -/
def Obligations.CallerEncodes : Prop :=
  ∀ (s : State) (rest : List CallerAction),
    (s.script = .enc1 :: rest → step s = .next { s with
      script := rest
      encIn := some { pair := false, b1 := 0, b0 := s.cellB0 }
      par := some ((parity s.cellB0).setWidth 8)
      cellP := (parity s.cellB0).setWidth 8 }) ∧
    (s.script = .enc2 :: rest → step s = .next { s with
      script := rest
      encIn := some { pair := true, b1 := s.cellB1, b0 := s.cellB0 }
      par := some (combinedParityByte (parity s.cellB1) (parity s.cellB0))
      cellP := combinedParityByte (parity s.cellB1) (parity s.cellB0) })

/-- 95_test_vectors.md section 4.1: the harness's DEC1, DEC1N and DEC2 present the cells and take the level, and the bytes whose
references they gave, back into the cells. -/
def Obligations.CallerDecodes : Prop :=
  ∀ (s : State) (rest : List CallerAction),
    (s.script = .dec1 :: rest → ∃ p out,
      p = { pair := false, v1 := false, v0 := true, rp := (s.cellP.extractLsb' 0 4).setWidth 8, b1 := 0, b0 := s.cellB0 } ∧
      out = decoderResponse p ∧
      step s = .next { s with script := rest, decIn := some p, decOut := some out, cellL := out.level, cellB0 := out.c0 }) ∧
    (s.script = .dec1N :: rest → ∃ p out,
      p = { pair := false, v1 := false, v0 := false, rp := (s.cellP.extractLsb' 0 4).setWidth 8, b1 := 0, b0 := s.cellB0 } ∧
      out = decoderResponse p ∧ out.level = 3 ∧
      step s = .next { s with script := rest, decIn := some p, decOut := some out, cellL := 3 }) ∧
    (s.script = .dec2 :: rest → ∃ p out,
      p = { pair := true, v1 := true, v0 := true, rp := s.cellP, b1 := s.cellB1, b0 := s.cellB0 } ∧
      out = decoderResponse p ∧
      step s = .next { s with
        script := rest, decIn := some p, decOut := some out
        cellL := out.level, cellB0 := out.c0, cellB1 := out.c1 })

/-- 95_test_vectors.md section 4.1 (for `L`, log 14): the channel's XOR changes the one cell it hits and uses no block. -/
def Obligations.ChannelHitsOneCell : Prop :=
  ∀ (s : State) (rest : List CallerAction) (m : Byte) (l : Level),
    (s.script = .xor (.b0 m) :: rest → step s = .next { s with script := rest, cellB0 := s.cellB0 ^^^ m }) ∧
    (s.script = .xor (.b1 m) :: rest → step s = .next { s with script := rest, cellB1 := s.cellB1 ^^^ m }) ∧
    (s.script = .xor (.p m) :: rest → step s = .next { s with script := rest, cellP := s.cellP ^^^ m }) ∧
    (s.script = .xor (.l l) :: rest → step s = .next { s with script := rest, cellL := s.cellL ^^^ l })
end

