-- ==== Sys2Proof/Laws/Encoding.lean ====
section
/-! SUPPORT. The fields of a request word: each concatenation gives back what was put in it, and each word is the
concatenation of its fields. -/

namespace Sys2Proof

/-! ### The bits of the two concatenations -/

theorem encReqWord_getLsbD (pair : Bool) (b1 b0 : Byte) (k : Nat) :
    (encReqWord pair b1 b0).getLsbD k =
      if k < 8 then b0.getLsbD k else if k - 8 < 8 then b1.getLsbD (k - 8) else (BitVec.ofBool pair).getLsbD (k - 8 - 8) :=
  (BitVec.getLsbD_append (x := BitVec.ofBool pair ++ b1) (y := b0)).trans (by rw [BitVec.getLsbD_append])

theorem decReqWord_getLsbD (pair v1 v0 : Bool) (rp b1 b0 : Byte) (k : Nat) :
    (decReqWord pair v1 v0 rp b1 b0).getLsbD k =
      if k < 8 then b0.getLsbD k else if k - 8 < 8 then b1.getLsbD (k - 8) else if k - 8 - 8 < 8 then rp.getLsbD (k - 8 - 8)
      else if k - 8 - 8 - 8 < 1 then (BitVec.ofBool v0).getLsbD (k - 8 - 8 - 8)
      else if k - 8 - 8 - 8 - 1 < 1 then (BitVec.ofBool v1).getLsbD (k - 8 - 8 - 8 - 1)
      else (BitVec.ofBool pair).getLsbD (k - 8 - 8 - 8 - 1 - 1) :=
  (BitVec.getLsbD_append (x := BitVec.ofBool pair ++ BitVec.ofBool v1 ++ BitVec.ofBool v0 ++ rp ++ b1) (y := b0)).trans
    (by simp only [BitVec.getLsbD_append])

/-! ### Reading the fields of a concatenation -/

theorem encInOfWord_encReqWord (pair : Bool) (b1 b0 : Byte) :
    encInOfWord (encReqWord pair b1 b0) = { pair := pair, b1 := b1, b0 := b0 } := by
  unfold encInOfWord
  congr 1
  · rw [encReqWord_getLsbD]
    simp
  all_goals
    apply BitVec.eq_of_getLsbD_eq
    intro k hk
    simp [encReqWord_getLsbD, hk]

theorem decInOfWord_decReqWord (pair v1 v0 : Bool) (rp b1 b0 : Byte) :
    decInOfWord (decReqWord pair v1 v0 rp b1 b0) =
      { pair := pair, v1 := v1, v0 := v0, rp := rp, b1 := b1, b0 := b0 } := by
  unfold decInOfWord
  congr 1
  all_goals first
    | rw [decReqWord_getLsbD]
      simp
    | apply BitVec.eq_of_getLsbD_eq
      intro k hk
      have h8 : ¬16 + k < 8 := by omega
      have h16 : ¬16 + k - 8 < 8 := by omega
      have hk' : 16 + k - 8 - 8 = k := by omega
      simp [decReqWord_getLsbD, h8, h16, hk', hk]

/-! ### Every word is the concatenation of its fields -/

theorem encReqWord_encInOfWord (w : BitVec 17) :
    encReqWord (encInOfWord w).pair (encInOfWord w).b1 (encInOfWord w).b0 = w := by
  apply BitVec.eq_of_getLsbD_eq
  intro k hk
  rw [encReqWord_getLsbD]
  unfold encInOfWord
  split
  · simp [*]
  split
  · have : 8 + (k - 8) = k := by omega
    simp [*]
  · obtain rfl : k = 16 := by omega
    simp

theorem decReqWord_decInOfWord (w : BitVec 27) :
    decReqWord (decInOfWord w).pair (decInOfWord w).v1 (decInOfWord w).v0 (decInOfWord w).rp (decInOfWord w).b1
      (decInOfWord w).b0 = w := by
  apply BitVec.eq_of_getLsbD_eq
  intro k hk
  rw [decReqWord_getLsbD]
  unfold decInOfWord
  split
  · simp [*]
  split
  · have : 8 + (k - 8) = k := by omega
    simp [*]
  split
  · have : 16 + (k - 8 - 8) = k := by omega
    simp [*]
  split
  · obtain rfl : k = 24 := by omega
    simp
  split
  · obtain rfl : k = 25 := by omega
    simp
  · obtain rfl : k = 26 := by omega
    simp

end Sys2Proof
end

