-- ==== Sys2Proof/Laws/State.lean ====
section
/-! SUPPORT. One lemma per field of State and update, so that no later proof unfolds an update. -/

namespace Sys2Proof.Machine

/-! ### Driving a block's ports -/

@[simp] theorem driveEncoder_config (inputs : EncIn) (par : Byte) (s : State) :
    (driveEncoder inputs par s).config = s.config := rfl

@[simp] theorem driveEncoder_encIn (inputs : EncIn) (par : Byte) (s : State) :
    (driveEncoder inputs par s).encIn = some inputs := rfl

@[simp] theorem driveEncoder_par (inputs : EncIn) (par : Byte) (s : State) :
    (driveEncoder inputs par s).par = some par := rfl

@[simp] theorem driveEncoder_decIn (inputs : EncIn) (par : Byte) (s : State) :
    (driveEncoder inputs par s).decIn = s.decIn := rfl

@[simp] theorem driveEncoder_decOut (inputs : EncIn) (par : Byte) (s : State) :
    (driveEncoder inputs par s).decOut = s.decOut := rfl

@[simp] theorem driveEncoder_cellB0 (inputs : EncIn) (par : Byte) (s : State) :
    (driveEncoder inputs par s).cellB0 = s.cellB0 := rfl

@[simp] theorem driveEncoder_cellB1 (inputs : EncIn) (par : Byte) (s : State) :
    (driveEncoder inputs par s).cellB1 = s.cellB1 := rfl

@[simp] theorem driveEncoder_cellP (inputs : EncIn) (par : Byte) (s : State) :
    (driveEncoder inputs par s).cellP = s.cellP := rfl

@[simp] theorem driveEncoder_cellL (inputs : EncIn) (par : Byte) (s : State) :
    (driveEncoder inputs par s).cellL = s.cellL := rfl

@[simp] theorem driveEncoder_script (inputs : EncIn) (par : Byte) (s : State) :
    (driveEncoder inputs par s).script = s.script := rfl

@[simp] theorem driveDecoder_config (inputs : DecIn) (out : DecOut) (s : State) :
    (driveDecoder inputs out s).config = s.config := rfl

@[simp] theorem driveDecoder_encIn (inputs : DecIn) (out : DecOut) (s : State) :
    (driveDecoder inputs out s).encIn = s.encIn := rfl

@[simp] theorem driveDecoder_par (inputs : DecIn) (out : DecOut) (s : State) :
    (driveDecoder inputs out s).par = s.par := rfl

@[simp] theorem driveDecoder_decIn (inputs : DecIn) (out : DecOut) (s : State) :
    (driveDecoder inputs out s).decIn = some inputs := rfl

@[simp] theorem driveDecoder_decOut (inputs : DecIn) (out : DecOut) (s : State) :
    (driveDecoder inputs out s).decOut = some out := rfl

@[simp] theorem driveDecoder_cellB0 (inputs : DecIn) (out : DecOut) (s : State) :
    (driveDecoder inputs out s).cellB0 = s.cellB0 := rfl

@[simp] theorem driveDecoder_cellB1 (inputs : DecIn) (out : DecOut) (s : State) :
    (driveDecoder inputs out s).cellB1 = s.cellB1 := rfl

@[simp] theorem driveDecoder_cellP (inputs : DecIn) (out : DecOut) (s : State) :
    (driveDecoder inputs out s).cellP = s.cellP := rfl

@[simp] theorem driveDecoder_cellL (inputs : DecIn) (out : DecOut) (s : State) :
    (driveDecoder inputs out s).cellL = s.cellL := rfl

@[simp] theorem driveDecoder_script (inputs : DecIn) (out : DecOut) (s : State) :
    (driveDecoder inputs out s).script = s.script := rfl

/-! ### The caller takes outputs into its cells -/

@[simp] theorem takeParity_config (s : State) :
    (takeParity s).config = s.config := by
  unfold takeParity; split <;> simp_all

@[simp] theorem takeParity_encIn (s : State) :
    (takeParity s).encIn = s.encIn := by
  unfold takeParity; split <;> simp_all

@[simp] theorem takeParity_par (s : State) :
    (takeParity s).par = s.par := by
  unfold takeParity; split <;> simp_all

@[simp] theorem takeParity_decIn (s : State) :
    (takeParity s).decIn = s.decIn := by
  unfold takeParity; split <;> simp_all

@[simp] theorem takeParity_decOut (s : State) :
    (takeParity s).decOut = s.decOut := by
  unfold takeParity; split <;> simp_all

@[simp] theorem takeParity_cellB0 (s : State) :
    (takeParity s).cellB0 = s.cellB0 := by
  unfold takeParity; split <;> simp_all

@[simp] theorem takeParity_cellB1 (s : State) :
    (takeParity s).cellB1 = s.cellB1 := by
  unfold takeParity; split <;> simp_all

@[simp] theorem takeParity_cellP (s : State) :
    (takeParity s).cellP = s.par.getD s.cellP := by
  unfold takeParity; split <;> simp_all

@[simp] theorem takeParity_cellL (s : State) :
    (takeParity s).cellL = s.cellL := by
  unfold takeParity; split <;> simp_all

@[simp] theorem takeParity_script (s : State) :
    (takeParity s).script = s.script := by
  unfold takeParity; split <;> simp_all

@[simp] theorem takeLevel_config (s : State) :
    (takeLevel s).config = s.config := by
  unfold takeLevel; split <;> simp_all

@[simp] theorem takeLevel_encIn (s : State) :
    (takeLevel s).encIn = s.encIn := by
  unfold takeLevel; split <;> simp_all

@[simp] theorem takeLevel_par (s : State) :
    (takeLevel s).par = s.par := by
  unfold takeLevel; split <;> simp_all

@[simp] theorem takeLevel_decIn (s : State) :
    (takeLevel s).decIn = s.decIn := by
  unfold takeLevel; split <;> simp_all

@[simp] theorem takeLevel_decOut (s : State) :
    (takeLevel s).decOut = s.decOut := by
  unfold takeLevel; split <;> simp_all

@[simp] theorem takeLevel_cellB0 (s : State) :
    (takeLevel s).cellB0 = s.cellB0 := by
  unfold takeLevel; split <;> simp_all

@[simp] theorem takeLevel_cellB1 (s : State) :
    (takeLevel s).cellB1 = s.cellB1 := by
  unfold takeLevel; split <;> simp_all

@[simp] theorem takeLevel_cellP (s : State) :
    (takeLevel s).cellP = s.cellP := by
  unfold takeLevel; split <;> simp_all

@[simp] theorem takeLevel_cellL (s : State) :
    (takeLevel s).cellL = (s.decOut.map DecOut.level).getD s.cellL := by
  unfold takeLevel; split <;> simp_all

@[simp] theorem takeLevel_script (s : State) :
    (takeLevel s).script = s.script := by
  unfold takeLevel; split <;> simp_all

@[simp] theorem takeFirstByte_config (s : State) :
    (takeFirstByte s).config = s.config := by
  unfold takeFirstByte; split <;> simp_all

@[simp] theorem takeFirstByte_encIn (s : State) :
    (takeFirstByte s).encIn = s.encIn := by
  unfold takeFirstByte; split <;> simp_all

@[simp] theorem takeFirstByte_par (s : State) :
    (takeFirstByte s).par = s.par := by
  unfold takeFirstByte; split <;> simp_all

@[simp] theorem takeFirstByte_decIn (s : State) :
    (takeFirstByte s).decIn = s.decIn := by
  unfold takeFirstByte; split <;> simp_all

@[simp] theorem takeFirstByte_decOut (s : State) :
    (takeFirstByte s).decOut = s.decOut := by
  unfold takeFirstByte; split <;> simp_all

@[simp] theorem takeFirstByte_cellB0 (s : State) :
    (takeFirstByte s).cellB0 = (s.decOut.map DecOut.c0).getD s.cellB0 := by
  unfold takeFirstByte; split <;> simp_all

@[simp] theorem takeFirstByte_cellB1 (s : State) :
    (takeFirstByte s).cellB1 = s.cellB1 := by
  unfold takeFirstByte; split <;> simp_all

@[simp] theorem takeFirstByte_cellP (s : State) :
    (takeFirstByte s).cellP = s.cellP := by
  unfold takeFirstByte; split <;> simp_all

@[simp] theorem takeFirstByte_cellL (s : State) :
    (takeFirstByte s).cellL = s.cellL := by
  unfold takeFirstByte; split <;> simp_all

@[simp] theorem takeFirstByte_script (s : State) :
    (takeFirstByte s).script = s.script := by
  unfold takeFirstByte; split <;> simp_all

@[simp] theorem takeSecondByte_config (s : State) :
    (takeSecondByte s).config = s.config := by
  unfold takeSecondByte; split <;> simp_all

@[simp] theorem takeSecondByte_encIn (s : State) :
    (takeSecondByte s).encIn = s.encIn := by
  unfold takeSecondByte; split <;> simp_all

@[simp] theorem takeSecondByte_par (s : State) :
    (takeSecondByte s).par = s.par := by
  unfold takeSecondByte; split <;> simp_all

@[simp] theorem takeSecondByte_decIn (s : State) :
    (takeSecondByte s).decIn = s.decIn := by
  unfold takeSecondByte; split <;> simp_all

@[simp] theorem takeSecondByte_decOut (s : State) :
    (takeSecondByte s).decOut = s.decOut := by
  unfold takeSecondByte; split <;> simp_all

@[simp] theorem takeSecondByte_cellB0 (s : State) :
    (takeSecondByte s).cellB0 = s.cellB0 := by
  unfold takeSecondByte; split <;> simp_all

@[simp] theorem takeSecondByte_cellB1 (s : State) :
    (takeSecondByte s).cellB1 = (s.decOut.map DecOut.c1).getD s.cellB1 := by
  unfold takeSecondByte; split <;> simp_all

@[simp] theorem takeSecondByte_cellP (s : State) :
    (takeSecondByte s).cellP = s.cellP := by
  unfold takeSecondByte; split <;> simp_all

@[simp] theorem takeSecondByte_cellL (s : State) :
    (takeSecondByte s).cellL = s.cellL := by
  unfold takeSecondByte; split <;> simp_all

@[simp] theorem takeSecondByte_script (s : State) :
    (takeSecondByte s).script = s.script := by
  unfold takeSecondByte; split <;> simp_all

/-! ### The channel hits a cell: its ports, backends and script stay -/

@[simp] theorem hitCell_config (s : State) (hit : ChannelHit) :
    (hitCell s hit).config = s.config := by
  cases hit <;> rfl

@[simp] theorem hitCell_encIn (s : State) (hit : ChannelHit) :
    (hitCell s hit).encIn = s.encIn := by
  cases hit <;> rfl

@[simp] theorem hitCell_par (s : State) (hit : ChannelHit) :
    (hitCell s hit).par = s.par := by
  cases hit <;> rfl

@[simp] theorem hitCell_decIn (s : State) (hit : ChannelHit) :
    (hitCell s hit).decIn = s.decIn := by
  cases hit <;> rfl

@[simp] theorem hitCell_decOut (s : State) (hit : ChannelHit) :
    (hitCell s hit).decOut = s.decOut := by
  cases hit <;> rfl

@[simp] theorem hitCell_script (s : State) (hit : ChannelHit) :
    (hitCell s hit).script = s.script := by
  cases hit <;> rfl

end Sys2Proof.Machine
end

