-- ==== Sys2Proof/Laws/Exec.lean ====
section
/-! SUPPORT. What one operation and one step can do, said once per operation and per kind of action. -/

namespace Sys2Proof.Machine

/-! ### One operation -/

theorem exec_enc1 (b1 b0 : Byte) (s : State) :
    exec (.enc1 b1 b0) s = .next (driveEncoder { pair := false, b1 := b1, b0 := b0 }
      (singleParityByte (parityBy s.config.encoder b0)) s) := rfl

theorem exec_enc2 (b1 b0 : Byte) (s : State) :
    exec (.enc2 b1 b0) s = .next (driveEncoder { pair := true, b1 := b1, b0 := b0 }
      (pairParityBy s.config.encoder b1 b0) s) := rfl

theorem exec_dec1 (v1 v0 : Bool) (rp b1 b0 : Byte) (s : State) :
    exec (.dec1 v1 v0 rp b1 b0) s = .next (driveDecoder { pair := false, v1 := v1, v0 := v0, rp := rp, b1 := b1, b0 := b0 }
      (dec1Out s.config.decoder v0 rp b1 b0) s) := rfl

theorem exec_dec2 (v1 v0 : Bool) (rp b1 b0 : Byte) (s : State) :
    exec (.dec2 v1 v0 rp b1 b0) s = .next (driveDecoder { pair := true, v1 := v1, v0 := v0, rp := rp, b1 := b1, b0 := b0 }
      (dec2Out s.config.decoder v1 v0 rp b1 b0) s) := rfl

/-- An operation's next state is the state with one block's ports driven. -/
theorem exec_cases {i : Instr} {s t : State} (h : exec i s = .next t) :
    (∃ inputs par, i = instrOfEncIn inputs ∧ t = driveEncoder inputs par s) ∨
    (∃ inputs out, i = instrOfDecIn inputs ∧ t = driveDecoder inputs out s) := by
  cases i with
  | enc1 b1 b0 => cases h; exact .inl ⟨⟨false, b1, b0⟩, _, rfl, rfl⟩
  | enc2 b1 b0 => cases h; exact .inl ⟨⟨true, b1, b0⟩, _, rfl, rfl⟩
  | dec1 v1 v0 rp b1 b0 => cases h; exact .inr ⟨⟨false, v1, v0, rp, b1, b0⟩, _, rfl, rfl⟩
  | dec2 v1 v0 rp b1 b0 => cases h; exact .inr ⟨⟨true, v1, v0, rp, b1, b0⟩, _, rfl, rfl⟩

/-! ### One step -/

theorem step_nil {s : State} (h : s.script = []) : step s = .refused .nothingPresented := by
  unfold step
  rw [h]

theorem step_cons {s : State} {action : CallerAction} {rest : List CallerAction} (h : s.script = action :: rest) :
    step s = act action { s with script := rest } := by
  unfold step
  rw [h]

theorem act_xor (hit : ChannelHit) (s : State) : act (.xor hit) s = .next (hitCell s hit) := rfl

theorem act_of_request {action : CallerAction} {r : Request} {s : State} (h : requestOfAction s action = some r) :
    act action s = thenNext (fun t => afterAction t action) (exec (decode r) s) := by
  unfold act
  rw [h]
  rfl

end Sys2Proof.Machine
end

