-- ==== Sys2Proof/Laws/Ops.lean ====
section
/-! SUPPORT. One lemma per shared operation that says what it can do; proofs cite these and do not unfold the operation. -/

namespace Sys2Proof.Machine

/-! ### Nibbles of a byte -/

theorem loNibble_combinedParityByte (second first : Nibble) : loNibble (combinedParityByte second first) = first := by
  revert second first
  decide

theorem hiNibble_combinedParityByte (second first : Nibble) : hiNibble (combinedParityByte second first) = second := by
  revert second first
  decide

theorem loNibble_xor (v w : Byte) : loNibble (v ^^^ w) = loNibble v ^^^ loNibble w := by
  unfold loNibble
  ext k hk
  simp

theorem hiNibble_xor (v w : Byte) : hiNibble (v ^^^ w) = hiNibble v ^^^ hiNibble w := by
  unfold hiNibble
  ext k hk
  simp

theorem loNibble_singleParityByte (p : Nibble) : loNibble (singleParityByte p) = p := by
  revert p
  decide

/-- A byte is 0 exactly when both its nibbles are. -/
theorem eq_zero_iff_nibbles (v : Byte) : v = 0 ↔ loNibble v = 0 ∧ hiNibble v = 0 := by
  revert v
  decide

/-! ### The three backends, each by its own rule -/

theorem parityBy_fullLut (b : Byte) : parityBy .fullLut b = romRead fullLut b := rfl

theorem parityBy_splitNibbleLut (b : Byte) :
    parityBy .splitNibbleLut b = romRead lowLut (loNibble b) ^^^ romRead highLut (hiNibble b) := rfl

theorem parityBy_serialXor (b : Byte) : parityBy .serialXor b = serialAcc b 8 := rfl

/-- Masking a 4-bit syndrome with 0xF changes nothing (R64, 90_conflicts.md C6). -/
theorem correctionEntry_eq (s : Nibble) : correctionEntry s = romRead correctionTable s := by
  revert s
  decide

/-- Everything the per-byte procedure can answer (R68). -/
theorem decodeByte_cases (b : Byte) (s : Nibble) :
    s = 0 ∧ decodeByte b s = (0, b) ∨
    s ≠ 0 ∧ correctionEntry s = ctParityOnly ∧ decodeByte b s = (1, b) ∨
    s ≠ 0 ∧ correctionEntry s = ctUncorrectable ∧ decodeByte b s = (3, b) ∨
    s ≠ 0 ∧ correctionEntry s ≠ ctParityOnly ∧ correctionEntry s ≠ ctUncorrectable ∧
      decodeByte b s = (1, b ^^^ correctionEntry s) := by
  unfold decodeByte
  by_cases h0 : s = 0
  · exact .inl ⟨h0, if_pos h0⟩
  by_cases h1 : correctionEntry s = ctParityOnly
  · exact .inr (.inl ⟨h0, h1, by rw [if_neg h0, if_pos h1]⟩)
  by_cases h2 : correctionEntry s = ctUncorrectable
  · exact .inr (.inr (.inl ⟨h0, h2, by rw [if_neg h0, if_neg h1, if_pos h2]⟩))
  · exact .inr (.inr (.inr ⟨h0, h1, h2, by rw [if_neg h0, if_neg h1, if_neg h2]⟩))

/-! ### The levels on the port -/

theorem laneLevelOnPort_injective {l l' : LaneLevel} (h : laneLevelOnPort l = laneLevelOnPort l') : l = l' := by
  revert l l'
  decide

end Sys2Proof.Machine
end

