-- ==== Sys2Proof/Laws/PerInstr.lean ====
section
/-! SUPPORT. Facts about every instruction as syntax, one lemma per constructor. -/

namespace Sys2Proof.Laws

/-- A row's test on a word, as a test of the one bit its mask keeps. -/
theorem and_twoPow_toNat {n : Nat} (w : BitVec n) (k : Nat) :
    w.toNat &&& 2 ^ k = if w.getLsbD k then 2 ^ k else 0 := by
  rw [Nat.and_two_pow]
  cases h : w.getLsbD k
  · have : w.toNat.testBit k = false := h
    simp [this]
  · have : w.toNat.testBit k = true := h
    simp [this]

end Sys2Proof.Laws

namespace Sys2Proof.Laws.SelectsRow

/-- The instruction's request word selects the row of the opcode table that bears its mnemonic (R48). -/
def Statement (i : Instr) : Prop :=
  i.wellFormed = true ∧ ∃ row ∈ opcodeTable, row.mnemonic = i.mnemonic ∧ row.selects (encode i) = true

theorem enc1 (b1 b0 : Byte) : Statement (.enc1 b1 b0) := by
  refine ⟨rfl, opcodeTable[0], by decide, rfl, ?_⟩
  have h := and_twoPow_toNat (encReqWord false b1 b0) 16
  rw [encReqWord_getLsbD] at h
  simpa [OpcodeRow.selects, opcodeTable, encode, Request.block, Request.value] using h

theorem enc2 (b1 b0 : Byte) : Statement (.enc2 b1 b0) := by
  refine ⟨rfl, opcodeTable[1], by decide, rfl, ?_⟩
  have h := and_twoPow_toNat (encReqWord true b1 b0) 16
  rw [encReqWord_getLsbD] at h
  simpa [OpcodeRow.selects, opcodeTable, encode, Request.block, Request.value] using h

theorem dec1 (v1 v0 : Bool) (rp b1 b0 : Byte) : Statement (.dec1 v1 v0 rp b1 b0) := by
  refine ⟨rfl, opcodeTable[2], by decide, rfl, ?_⟩
  have h := and_twoPow_toNat (decReqWord false v1 v0 rp b1 b0) 26
  rw [decReqWord_getLsbD] at h
  simpa [OpcodeRow.selects, opcodeTable, encode, Request.block, Request.value] using h

theorem dec2 (v1 v0 : Bool) (rp b1 b0 : Byte) : Statement (.dec2 v1 v0 rp b1 b0) := by
  refine ⟨rfl, opcodeTable[3], by decide, rfl, ?_⟩
  have h := and_twoPow_toNat (decReqWord true v1 v0 rp b1 b0) 26
  rw [decReqWord_getLsbD] at h
  simpa [OpcodeRow.selects, opcodeTable, encode, Request.block, Request.value] using h

end Sys2Proof.Laws.SelectsRow
end

