-- ==== Sys2Proof/Tests/Slice0.lean ====
section
/-! SUPPORT. Tests. The expected values are the ones that spec/95_test_vectors.md and the examples of spec/40_encoder.md and
spec/41_decoder.md print. The `witness_` theorems show, for each statement with hypotheses, states and operands that meet
them, one for each clause. -/

namespace Sys2Proof.Machine.Tests

/-- The outcome is a next state of which `p` holds. -/
def nextIs (outcome : Host.Outcome State Fault Refusal) (p : State → Bool) : Bool :=
  match outcome with
  | .next t => p t
  | .fault _ => false
  | .refused _ => false

/-- The machine at reset with the given cells and the given actions to do. -/
def callerWith (b0 b1 p : Byte) (script : List CallerAction) : State :=
  { State.reset with cellB0 := b0, cellB1 := b1, cellP := p, script := script }

/-- The machine at reset, built with the given backends, with one request to present. -/
def presenting (encoder decoder : Backend) (r : Request) : State :=
  { State.reset with config := { encoder := encoder, decoder := decoder }, script := [.present r] }

/-! ### WellFormed: one ill-formed term for each check -/

theorem test_bytes_three_with_bit_17_refused : requestBytesWellFormed [0x00, 0x00, 0x02] = false := by decide
theorem test_bytes_four_with_bit_27_refused : requestBytesWellFormed [0x00, 0x00, 0x00, 0x08] = false := by decide
theorem test_bytes_two_refused : requestBytesWellFormed [0x00, 0x00] = false := by decide
theorem test_bytes_five_refused : requestBytesWellFormed [0x00, 0x00, 0x00, 0x00, 0x00] = false := by decide
theorem test_enc1_with_b1_not_canonical : Instr.canonical (.enc1 0xAB 0x01) = false := by decide
theorem test_dec1_with_v1_not_canonical : Instr.canonical (.dec1 true true 0x03 0x00 0xE5) = false := by decide
theorem test_dec1_with_high_rp_not_canonical : Instr.canonical (.dec1 false true 0xF3 0x00 0xE5) = false := by decide
theorem test_dec1_with_b1_not_canonical : Instr.canonical (.dec1 false true 0x03 0xCC 0xE5) = false := by decide
theorem test_ignored_fields_are_well_formed : Instr.wellFormed (.dec1 true true 0xF3 0xCC 0xE5) = true := by decide

/-! ### Decoding: words written out bit by bit from R43, R45, R48 -/

-- {pair, b1, b0}
theorem test_decode_enc1 : decode (.enc 0b0_10101011_00000001) = .enc1 0xAB 0x01 := by decide
theorem test_decode_enc2 : decode (.enc 0b1_11111111_00000000) = .enc2 0xFF 0x00 := by decide
-- {pair, v1, v0, rp, b1, b0}
theorem test_decode_dec1 : decode (.dec 0b0_1_0_11110011_11001100_11100101) = .dec1 true false 0xF3 0xCC 0xE5 := by decide
theorem test_decode_dec2 : decode (.dec 0b1_0_1_00110000_11111111_00000001) = .dec2 false true 0x30 0xFF 0x01 := by decide
theorem test_written_dec1 : encode (AsmForm.dec1 true 0xE5 0x3).toInstr = .dec 0x10300E5 := by decide
theorem test_written_dec2 : encode (AsmForm.dec2 true true 0x01 0xFF 0x30).toInstr = .dec 0x730FF01 := by decide
theorem test_table_word_enc : decodeTableWord 24 0x10000 = some (.enc2 0 0) := by decide
theorem test_table_word_dec : decodeTableWord 32 0x4000000 = some (.dec2 false false 0 0 0) := by decide
theorem test_table_word_bit_17_refused : decodeTableWord 24 0x20000 = none := by decide
theorem test_bytes_refused_by_name : decodeBytes [0x00] = .error .noSuchFormat := by rfl

/-! ### The parity function, the backends and the tables -/

theorem test_parity_FF : parity 0xFF = 0x3 := by decide -- 90_conflicts.md C1
theorem test_parity_A5 : parity 0xA5 = 0x3 := by decide
theorem test_split_7E : parityBy .splitNibbleLut 0x7E = 0xC := by decide
-- 95_test_vectors.md section 2.2, the row of A5
theorem test_serial_A5 : (List.range 9).map (serialAcc 0xA5) = [0x0, 0x3, 0x3, 0x5, 0x5, 0x5, 0xF, 0xF, 0x3] := by decide
theorem test_full_table_A5 : romRead fullLut 0xA5 = 0x3 := by decide
theorem test_correction_table_11 : correctionEntry 0xB = 0x40 := by decide
theorem test_codeword_bits : codewordBits 0xA5 0x3 =
    [true, true, true, false, false, true, false, false, false, true, false, true] := by decide

/-! ### One step, from reset -/

-- ENC1 0x01 -> 0x03
theorem test_enc1_01 : nextIs (step (presenting .serialXor .fullLut (.enc 0x00001))) (fun t => t.par == some 0x03) = true := by decide
-- b1 is ignored
theorem test_enc1_ignores_b1 :
    nextIs (step (presenting .splitNibbleLut .fullLut (.enc 0x0AB01))) (fun t => t.par == some 0x03) = true := by decide
-- ENC2 0x00, 0xFF -> 0x30
theorem test_enc2_00_FF : nextIs (step (presenting .fullLut .fullLut (.enc 0x1FF00))) (fun t => t.par == some 0x30) = true := by decide
theorem test_enc2_12_34 : nextIs (step (presenting .serialXor .fullLut (.enc 0x13412))) (fun t => t.par == some 0x5C) = true := by decide
-- DEC1 1, 0xE5, 0x3 with every ignored field set -> DEC_RSP 1CCA5
theorem test_dec1_ignored_fields : nextIs (step (presenting .fullLut .splitNibbleLut (.dec 0x3F3CCE5)))
    (fun t => t.decOut.map decRspWord == some 0x1CCA5) = true := by decide
-- an absent reference wins over a matching parity
theorem test_dec1_absent : nextIs (step (presenting .fullLut .fullLut (.dec 0x00300A5)))
    (fun t => t.decOut.map decRspWord == some 0x300A5) = true := by decide
-- lane 0 uncorrectable, lane 1 data bit: 3 + 1
theorem test_dec2_three_plus_one : nextIs (step (presenting .fullLut .serialXor (.dec 0x7317F80)))
    (fun t => t.decOut.map decRspWord == some 0x4FF80) = true := by decide
-- second reference absent: lane 0 is not corrected
theorem test_dec2_absent : nextIs (step (presenting .fullLut .fullLut (.dec 0x530FF01)))
    (fun t => t.decOut.map decRspWord == some 0x3FF01) = true := by decide
theorem test_fetch_word_runs : nextIs (step (State.reset.withFetchWord 32 0x4000000)) (fun t => t.decOut.isSome) = true := by decide

/-! ### The caller's statements (95_test_vectors.md sections 4.2 to 4.8) -/

theorem test_caller_enc2 : nextIs (step (callerWith 0x12 0x34 0x00 [.enc2])) (fun t => t.cellP == 0x5C) = true := by decide
theorem test_caller_dec1 : nextIs (step (callerWith 0xE5 0x00 0x03 [.dec1]))
    (fun t => t.cellB0 == 0xA5 && t.cellL == 1 && t.cellP == 0x03) = true := by decide
theorem test_caller_dec1N : nextIs (step (callerWith 0xA5 0x00 0x03 [.dec1N])) (fun t => t.cellB0 == 0xA5 && t.cellL == 3) = true := by decide
theorem test_caller_dec2 : nextIs (step (callerWith 0x92 0x34 0x1C [.dec2]))
    (fun t => t.cellB0 == 0x12 && t.cellB1 == 0x34 && t.cellL == 2) = true := by decide
theorem test_caller_xor : nextIs (step (callerWith 0x00 0xFF 0x30 [.xor (.b1 0x80)])) (fun t => t.cellB1 == 0x7F) = true := by decide

/-! ### Witnesses for the hypotheses of the statements -/

theorem witness_BytesDecodeOrAreRefusedByName :
    requestBytesWellFormed [0xFF, 0xFF, 0x01] = true ∧ requestBytesWellFormed [0xFF, 0xFF, 0xFF, 0x07] = true ∧
    requestBytesWellFormed [0x00, 0x00, 0x02] = false ∧ requestBytesWellFormed [0x00, 0x00, 0x00, 0x08] = false ∧
    ([] : List Byte).length ≠ 3 ∧ ([] : List Byte).length ≠ 4 := by decide

theorem witness_EncodersLeaveTheRestAlone : ∃ t u : State,
    exec (.enc1 0 1) State.reset = .next t ∧ exec (.enc2 0 1) State.reset = .next u := ⟨_, _, rfl, rfl⟩

theorem witness_DecodersLeaveTheRestAlone : ∃ t u : State,
    exec (.dec1 true true 3 0 1) State.reset = .next t ∧ exec (.dec2 true true 3 0 1) State.reset = .next u :=
  ⟨_, _, rfl, rfl⟩

theorem witness_SyndromeClassesAsTabled :
    (1 : Nibble) ∈ ([1, 2, 4, 8] : List Nibble) ∧ (8 : Nibble) ∈ ([1, 2, 4, 8] : List Nibble) ∧
    (13 : Nibble) ∈ ([13, 14, 15] : List Nibble) ∧ (15 : Nibble) ∈ ([13, 14, 15] : List Nibble) := by decide

-- DECODE_BYTE: syndromes 8 (parity-only), 13 (uncorrectable), 12 (a mask), 0
theorem witness_DecodeByteFollowsTableAndMap :
    romRead correctionTable ((8 : Nibble) &&& 0xF) = 0xFE ∧ romRead correctionTable ((13 : Nibble) &&& 0xF) = 0xFF ∧
    romRead correctionTable ((12 : Nibble) &&& 0xF) ≠ 0xFE ∧ romRead correctionTable ((12 : Nibble) &&& 0xF) ≠ 0xFF ∧
    syndromeMap 0 = .noError ∧ syndromeMap 8 = .parityOnly ∧ syndromeMap 12 = .dataBit 7 ∧ syndromeMap 13 = .uncorrectable := by
  decide

-- a zero and a nonzero syndrome, for one byte and for a pair
theorem witness_ConditionsAreDecidedInOrder :
    parity 0xA5 ^^^ (0x03 : Byte).extractLsb' 0 4 = 0 ∧ parity 0xA5 ^^^ (0x0F : Byte).extractLsb' 0 4 ≠ 0 ∧
    (parity 0xFF ++ parity 0x00) ^^^ (0x30 : Byte) = 0 ∧ (parity 0xFF ++ parity 0x00) ^^^ (0x31 : Byte) ≠ 0 := by decide

-- the levels 1 and 3 at the edges 1, 12, 13, 15 of their ranges of syndromes
theorem witness_EveryLevelAndItsCauses :
    (parity 0x00 ^^^ (0x01 : Byte).extractLsb' 0 4).toNat = 1 ∧ (parity 0x00 ^^^ (0x0C : Byte).extractLsb' 0 4).toNat = 12 ∧
    (parity 0x00 ^^^ (0x0D : Byte).extractLsb' 0 4).toNat = 13 ∧ (parity 0x00 ^^^ (0x0F : Byte).extractLsb' 0 4).toNat = 15 := by
  decide

-- an uncorrectable byte; a pair with lane 0, and one with lane 1, uncorrectable
theorem witness_LevelThreeChangesNothing :
    (dec1Out .fullLut true 0x0F 0x00 0x00).level = 3 ∧
    syndromeMap (parity 0x80 ^^^ (0x31 : Byte).extractLsb' 0 4) = .uncorrectable ∧
    syndromeMap (parity 0x7F ^^^ (0x20 : Byte).extractLsb' 4 4) = .uncorrectable := by decide

-- a corrected bit, a parity-only hit, an uncorrectable byte
theorem witness_DecodingAgain :
    (dec1Out .fullLut true 0x03 0x00 0xE5).level = 1 ∧ (dec1Out .fullLut true 0x03 0x00 0xE5).c0 ≠ 0xE5 ∧
    (dec1Out .fullLut true 0x02 0x00 0xA5).level = 1 ∧ (dec1Out .fullLut true 0x02 0x00 0xA5).c0 = 0xA5 ∧
    (dec1Out .fullLut true 0x03 0x00 0x24).level = 3 := by decide

theorem witness_AtMostOneBitOfAByteChanges : ∃ i j : Instr, i = .dec1 true true 3 0 0xE5 ∧ j = .dec2 true true 3 0 0xE5 :=
  ⟨_, _, rfl, rfl⟩

theorem witness_TwoFlipsAreNeverRestored : Carrier.check 0 ≠ Carrier.data 0 ∧ Carrier.data 6 ≠ Carrier.data 7 := by decide

theorem witness_EveryOperationCompletes : ∃ v0 v1 : Bool, v0 = false ∨ v1 = false := ⟨false, true, by decide⟩

theorem witness_AnswersIgnoreHistory : ∃ t t' u u' : State,
    exec (decode (.enc 0x00001)) State.reset = .next t ∧
    exec (decode (.enc 0x00001)) (callerWith 1 2 3 [.dec2]) = .next t' ∧
    exec (decode (.dec 0x10300E5)) State.reset = .next u ∧
    exec (decode (.dec 0x10300E5)) (callerWith 1 2 3 [.dec2]) = .next u' := ⟨_, _, _, _, rfl, rfl, rfl, rfl⟩

theorem witness_StepRunsThePresentedRequest :
    (presenting .fullLut .fullLut (.enc 0x00001)).script = .present (.enc 0x00001) :: [] ∧
    decode (.enc 0x00001) = .enc1 0x00 0x01 := by decide

theorem witness_TableWordRunsNext : decodeTableWord 24 0x1FFFF = some (.enc2 0xFF 0xFF) ∧
    decodeTableWord 32 0x7FFFFFF = some (.dec2 true true 0xFF 0xFF 0xFF) := by decide

theorem witness_RunsLastAsLongAsTheScript :
    State.reset.script = [] ∧ (callerWith 1 2 3 [.dec2]).script = .dec2 :: [] := by decide

theorem witness_StepKeepsPortsSettled : ∃ t : State,
    (callerWith 1 2 3 [.dec2]).PortsSettled ∧ step (callerWith 1 2 3 [.dec2]) = .next t := ⟨_, ⟨rfl, rfl⟩, rfl⟩

theorem witness_CallerEncodes :
    (callerWith 1 2 3 [.enc1]).script = .enc1 :: [] ∧ (callerWith 1 2 3 [.enc2]).script = .enc2 :: [] := by decide

theorem witness_CallerDecodes :
    (callerWith 1 2 3 [.dec1]).script = .dec1 :: [] ∧ (callerWith 1 2 3 [.dec1N]).script = .dec1N :: [] ∧
    (callerWith 1 2 3 [.dec2]).script = .dec2 :: [] := by decide

theorem witness_ChannelHitsOneCell :
    (callerWith 1 2 3 [.xor (.b0 0xFF)]).script = .xor (.b0 0xFF) :: [] ∧
    (callerWith 1 2 3 [.xor (.b1 0xFF)]).script = .xor (.b1 0xFF) :: [] ∧
    (callerWith 1 2 3 [.xor (.p 0xFF)]).script = .xor (.p 0xFF) :: [] ∧
    (callerWith 1 2 3 [.xor (.l 7)]).script = .xor (.l 7) :: [] := by decide

end Sys2Proof.Machine.Tests
end

/-! SUPPORT. The parity function and its three backends: `PAR` as a sum over the data bits, its linearity, what the tables
hold, and that every backend computes `PAR` (spec/40_encoder.md R50 to R57). -/

namespace Sys2Proof.Machine

/-! ### `PAR` as a sum over the data bits -/

/-- What `b[i]` adds to the parity: `POS(i)` if the bit is 1, and else nothing (R51). -/
def positionIfSet (b : Byte) (i : Fin 8) : Nibble :=
  if b.getLsbD i then pos i else 0

theorem positionIfSet_of_set {b : Byte} {i : Fin 8} (h : b.getLsbD i = true) : positionIfSet b i = pos i :=
  if_pos h

theorem positionIfSet_of_clear {b : Byte} {i : Fin 8} (h : b.getLsbD i = false) : positionIfSet b i = 0 :=
  if_neg (by rw [h]; decide)

theorem positionIfSet_xor (a c : Byte) (i : Fin 8) :
    positionIfSet (a ^^^ c) i = positionIfSet a i ^^^ positionIfSet c i := by
  unfold positionIfSet
  rw [BitVec.getLsbD_xor]
  cases a.getLsbD i <;> cases c.getLsbD i <;> simp

/-- Leaving out the bits that are 0 is XORing 0 in for them. -/
theorem foldr_xor_filter_set (b : Byte) (bits : List (Fin 8)) :
    ((bits.filter fun (i : Fin 8) => b.getLsbD i).map pos).foldr (· ^^^ ·) 0 =
      (bits.map (positionIfSet b)).foldr (· ^^^ ·) 0 := by
  induction bits with
  | nil => rfl
  | cons i bits ih =>
    rw [List.map_cons, List.foldr_cons, ← ih, List.filter_cons]
    cases h : b.getLsbD i with
    | false => simp [positionIfSet_of_clear h]
    | true => simp [positionIfSet_of_set h]

theorem parity_eq_foldr (b : Byte) : parity b = (dataBits.map (positionIfSet b)).foldr (· ^^^ ·) 0 :=
  foldr_xor_filter_set b dataBits

theorem foldr_positionIfSet_xor (a c : Byte) (bits : List (Fin 8)) :
    (bits.map (positionIfSet (a ^^^ c))).foldr (· ^^^ ·) 0 =
      (bits.map (positionIfSet a)).foldr (· ^^^ ·) 0 ^^^ (bits.map (positionIfSet c)).foldr (· ^^^ ·) 0 := by
  induction bits with
  | nil => exact BitVec.xor_zero.symm
  | cons i bits ih =>
    simp only [List.map_cons, List.foldr_cons, positionIfSet_xor, ih]
    ac_rfl

/-- `PAR` is linear over XOR (R53). -/
theorem parity_xor (a c : Byte) : parity (a ^^^ c) = parity a ^^^ parity c := by
  simp only [parity_eq_foldr, foldr_positionIfSet_xor]

/-! ### Nibbles of a byte as slices -/

theorem loNibble_eq_extractLsb' (v : Byte) : loNibble v = v.extractLsb' 0 4 := rfl

theorem hiNibble_eq_extractLsb' (v : Byte) : hiNibble v = v.extractLsb' 4 4 := by
  unfold hiNibble
  ext k hk
  simp [Nat.lt_trans hk]

/-- A byte is the XOR of its two halves, each in its place. -/
theorem eq_loNibble_xor_hiNibble (b : Byte) :
    b = (loNibble b).setWidth 8 ^^^ (hiNibble b).setWidth 8 <<< 4 := by
  revert b
  decide

/-! ### What the tables hold -/

theorem romRead_lowLut (n : Nibble) : romRead lowLut n = parity (n.setWidth 8) := by
  revert n
  decide

theorem romRead_highLut (n : Nibble) : romRead highLut n = parity (n.setWidth 8 <<< 4) := by
  revert n
  decide

/-- A table whose entries are listed by a function is read as that function. -/
theorem romRead_eq_of_entries {n w : Nat} {T : Rom n w} {f : BitVec n → BitVec w}
    (h : T.entries = (List.range (2 ^ n)).map fun k => f (BitVec.ofNat n k)) (i : BitVec n) : romRead T i = f i := by
  simp [romRead, h]

/-- `m` rows of `n` values each, one after the other, are the `m * n` values in order. -/
theorem flatten_rows {α : Type} (f : Nat → α) (m n : Nat) :
    ((List.range m).map fun h => (List.range n).map fun l => f (h * n + l)).flatten = (List.range (m * n)).map f := by
  induction m with
  | zero => simp
  | succ m ih => simp [List.range_succ, List.range_add, Nat.succ_mul, ih]

theorem fullLutRows_eq :
    fullLutRows = (List.range 16).map fun h => (List.range 16).map fun l => parity (BitVec.ofNat 8 (h * 16 + l)) := by
  decide

/-- Entry `b` of the full table is `PAR(b)` (R21). -/
theorem romRead_fullLut (b : Byte) : romRead fullLut b = parity b :=
  romRead_eq_of_entries ((congrArg List.flatten fullLutRows_eq).trans
    (flatten_rows (fun k => parity (BitVec.ofNat 8 k)) 16 16)) b

/-! ### Each backend computes `PAR` -/

/-- The two reads are the parities of the two halves of the byte, and `PAR` is linear. -/
theorem parityBy_splitNibbleLut_eq_parity (b : Byte) : parityBy .splitNibbleLut b = parity b := by
  rw [parityBy_splitNibbleLut, romRead_lowLut, romRead_highLut, ← parity_xor, ← eq_loNibble_xor_hiNibble]

theorem foldl_serialStage (b : Byte) (bits : List (Fin 8)) (acc : Nibble) :
    bits.foldl (serialStage b) acc = acc ^^^ (bits.map (positionIfSet b)).foldr (· ^^^ ·) 0 := by
  induction bits generalizing acc with
  | nil => simp
  | cons i bits ih =>
    have stage : serialStage b acc i = acc ^^^ positionIfSet b i := by
      unfold serialStage positionIfSet
      split
      · rfl
      · exact BitVec.xor_zero.symm
    rw [List.foldl_cons, ih, stage, List.map_cons, List.foldr_cons, BitVec.xor_assoc]

/-- The accumulator starts at 0 and XORs in the position of each set bit. -/
theorem parityBy_serialXor_eq_parity (b : Byte) : parityBy .serialXor b = parity b := by
  rw [parityBy_serialXor, parity_eq_foldr]
  exact (foldl_serialStage b dataBits 0).trans (BitVec.zero_xor)

/-- Every backend returns `PAR` (R51, R57). -/
@[simp] theorem parityBy_eq_parity (backend : Backend) (b : Byte) : parityBy backend b = parity b := by
  cases backend with
  | fullLut => exact romRead_fullLut b
  | splitNibbleLut => exact parityBy_splitNibbleLut_eq_parity b
  | serialXor => exact parityBy_serialXor_eq_parity b

end Sys2Proof.Machine

/-! SUPPORT. What the operations answer, with the backend taken out: the encoder's answer is `encoderResponse`, and the
decoder's outputs are the same for any two backends. -/

namespace Sys2Proof.Machine

/-! ### The shared operations by `PAR` alone -/

@[simp] theorem pairParityBy_eq (backend : Backend) (b1 b0 : Byte) :
    pairParityBy backend b1 b0 = combinedParityByte (parity b1) (parity b0) := by
  simp only [pairParityBy, parityBy_eq_parity]

@[simp] theorem syndrome_eq (backend : Backend) (b : Byte) (rp4 : Nibble) :
    syndrome backend b rp4 = parity b ^^^ rp4 := by
  simp only [syndrome, parityBy_eq_parity]

@[simp] theorem pairSyndrome_eq (backend : Backend) (b1 b0 rp : Byte) :
    pairSyndrome backend b1 b0 rp = combinedParityByte (parity b1) (parity b0) ^^^ rp := by
  simp only [pairSyndrome, pairParityBy_eq]

theorem dec1Out_backend (k k' : Backend) (v0 : Bool) (rp b1 b0 : Byte) :
    dec1Out k v0 rp b1 b0 = dec1Out k' v0 rp b1 b0 := by
  simp only [dec1Out, syndrome_eq]

theorem dec2Out_backend (k k' : Backend) (v1 v0 : Bool) (rp b1 b0 : Byte) :
    dec2Out k v1 v0 rp b1 b0 = dec2Out k' v1 v0 rp b1 b0 := by
  simp only [dec2Out, pairSyndrome_eq]

/-! ### The encoder's answer -/

/-- Whatever the encoder's inputs select, `par` becomes `encoderResponse` of them (R58, R59). -/
theorem exec_instrOfEncIn (p : EncIn) (s : State) :
    exec (instrOfEncIn p) s = .next (driveEncoder p (encoderResponse p) s) := by
  obtain ⟨pair, b1, b0⟩ := p
  cases pair with
  | false => simp [instrOfEncIn, encoderResponse, exec_enc1]
  | true => simp [instrOfEncIn, encoderResponse, exec_enc2]

theorem encoderAnswers_enc1 (s : State) (b1 b0 : Byte) :
    EncoderAnswers (.enc1 b1 b0) s (singleParityByte (parity b0)) :=
  ⟨_, exec_instrOfEncIn ⟨false, b1, b0⟩ s, rfl⟩

theorem encoderAnswers_enc2 (s : State) (b1 b0 : Byte) :
    EncoderAnswers (.enc2 b1 b0) s (combinedParityByte (parity b1) (parity b0)) :=
  ⟨_, exec_instrOfEncIn ⟨true, b1, b0⟩ s, rfl⟩

/-! ### Other backends -/

/-- An operation completes, and with other backends it reaches the same state but for the choice itself (R57). -/
theorem exec_with_config (i : Instr) (s : State) (other : Config) :
    ∃ t, exec i s = .next t ∧ exec i { s with config := other } = .next { t with config := other } := by
  cases i with
  | enc1 b1 b0 => exact ⟨_, exec_instrOfEncIn ⟨false, b1, b0⟩ s, exec_instrOfEncIn ⟨false, b1, b0⟩ _⟩
  | enc2 b1 b0 => exact ⟨_, exec_instrOfEncIn ⟨true, b1, b0⟩ s, exec_instrOfEncIn ⟨true, b1, b0⟩ _⟩
  | dec1 v1 v0 rp b1 b0 =>
    refine ⟨_, exec_dec1 v1 v0 rp b1 b0 s, ?_⟩
    rw [exec_dec1, dec1Out_backend _ s.config.decoder]
    rfl
  | dec2 v1 v0 rp b1 b0 =>
    refine ⟨_, exec_dec2 v1 v0 rp b1 b0 s, ?_⟩
    rw [exec_dec2, dec2Out_backend _ s.config.decoder]
    rfl

end Sys2Proof.Machine

/-! SUPPORT. The statements about the parity function, its backends and the two encode operations, settled. -/

namespace Sys2Proof.Machine

/-- Settles O7: the sum over the data bits written out, and each backend by its own rule. -/
theorem parityIsXorOfSetBitPositions : Obligations.ParityIsXorOfSetBitPositions := by
  refine ⟨fun b => ?_, by decide, parityBy_eq_parity⟩
  rw [parity_eq_foldr]
  simp [dataBits, positionIfSet, pos, BitVec.xor_assoc]

/-- Settles O11: the backend's own rule, with its nibbles as slices, and what each table holds. -/
theorem splitBackendXorsTwoReads : Obligations.SplitBackendXorsTwoReads := by
  refine ⟨fun b => ?_, fun n => ⟨romRead_lowLut n, romRead_highLut n⟩, by decide⟩
  rw [parityBy_splitNibbleLut, loNibble_eq_extractLsb', hiNibble_eq_extractLsb']

/-- Settles O13: each backend computes `PAR`, so the operations cannot tell them apart. -/
theorem backendsAgreeAndAreUnobservable : Obligations.BackendsAgreeAndAreUnobservable :=
  ⟨fun b => by simp only [parityBy_eq_parity, and_self], exec_with_config⟩

/-- Settles O16: the nibbles of the combined byte are the two parities, each computed alone. -/
theorem enc2AnswersCombinedParity : Obligations.Enc2AnswersCombinedParity := by
  refine ⟨fun s b1 b0 => exec_instrOfEncIn ⟨true, b1, b0⟩ s, fun b1 b0 => ⟨_, rfl, ?_⟩, fun s b1 b0 x y => ?_,
    by decide, fun s => encoderAnswers_enc2 s 0xFF 0x00⟩
  · rw [encReqWord_getLsbD]
    rfl
  · refine ⟨_, _, _, _, encoderAnswers_enc2 s b1 b0, encoderAnswers_enc1 s x b0, encoderAnswers_enc1 s y b1,
      encoderAnswers_enc2 s b0 b1, ?_⟩
    simp only [← loNibble_eq_extractLsb', ← hiNibble_eq_extractLsb', loNibble_combinedParityByte,
      hiNibble_combinedParityByte, loNibble_singleParityByte, and_self]

/-- Settles O17: the function is `encoderResponse` of the word's fields. -/
theorem encodersArePureAndTotal : Obligations.EncodersArePureAndTotal :=
  ⟨fun w => encoderResponse (encInOfWord w), fun w s => exec_instrOfEncIn (encInOfWord w) s⟩

end Sys2Proof.Machine

/-! SUPPORT. The decoder's answer by `PAR` and `SMAP` alone: the classes of the sixteen syndromes, the per-byte procedure by
class, the nibbles of a pair's syndrome, and that the decoder's answer is `decoderResponse` (spec/41_decoder.md R62 to R72). -/

namespace Sys2Proof.Machine

/-! ### The sixteen syndromes -/

/-- Syndrome 0, and no other, is no error (R63). -/
theorem syndromeMap_eq_noError_iff (s : Nibble) : syndromeMap s = .noError ↔ s = 0 := by
  revert s
  decide

/-- A check position's number names no data bit (R63). -/
theorem syndromeMap_positionOf_check (j : Fin 4) : syndromeMap (positionOf (.check j)) = .parityOnly := by
  revert j
  decide

/-- A data position's number names its bit (R50, R63). -/
theorem syndromeMap_pos (i : Fin 8) : syndromeMap (pos i) = .dataBit i := by
  revert i
  decide

/-- The numbers above the twelve positions, and no others, are uncorrectable (R63). -/
theorem syndromeMap_eq_uncorrectable_iff (s : Nibble) : syndromeMap s = .uncorrectable ↔ s ∈ [13, 14, 15] := by
  revert s
  decide

/-- The four powers of two are the positions of the parity bits (R35, R36). -/
theorem exists_positionOf_check {s : Nibble} (h : s ∈ [1, 2, 4, 8]) : ∃ j : Fin 4, positionOf (.check j) = s := by
  revert s
  decide

/-! ### The per-byte procedure by class -/

/-- The correction table stores `SMAP` (R65). -/
theorem correctionEntry_eq_entryOfClass (s : Nibble) : correctionEntry s = entryOfClass (syndromeMap s) := by
  revert s
  decide

/-- A one-hot mask is neither sentinel, so the table's entry alone tells the classes apart (R39). -/
theorem bitMask_ne_sentinel (i : Fin 8) : bitMask i ≠ ctParityOnly ∧ bitMask i ≠ ctUncorrectable := by
  revert i
  decide

/-- `DECODE_BYTE` answers what the class of the syndrome says (R63, R68). -/
theorem decodeByte_eq (b : Byte) (s : Nibble) :
    decodeByte b s = (classLevel (syndromeMap s), classByte b (syndromeMap s)) := by
  simp only [decodeByte, correctionEntry_eq_entryOfClass, ← syndromeMap_eq_noError_iff]
  cases syndromeMap s with
  | noError => rfl
  | parityOnly => rfl
  | dataBit i => simp [entryOfClass, bitMask_ne_sentinel i, classLevel, classByte]
  | uncorrectable => rfl

theorem decodeByte_recomputed_xor_received (b : Byte) (rp4 : Nibble) :
    decodeByte b (parity b ^^^ rp4) = (classLevel (receivedClass b rp4), classByte b (receivedClass b rp4)) :=
  decodeByte_eq b _

/-! ### The syndrome of a pair -/

theorem combinedParityByte_eq_append (second first : Nibble) : combinedParityByte second first = second ++ first := by
  revert second first
  decide

theorem loNibble_pairSyndrome (backend : Backend) (b1 b0 rp : Byte) :
    loNibble (pairSyndrome backend b1 b0 rp) = parity b0 ^^^ loNibble rp := by
  rw [pairSyndrome_eq, loNibble_xor, loNibble_combinedParityByte]

theorem hiNibble_pairSyndrome (backend : Backend) (b1 b0 rp : Byte) :
    hiNibble (pairSyndrome backend b1 b0 rp) = parity b1 ^^^ hiNibble rp := by
  rw [pairSyndrome_eq, hiNibble_xor, hiNibble_combinedParityByte]

/-- A pair's syndrome is 0 exactly when neither lane has an error (R71 step 3). -/
theorem pairSyndrome_eq_zero_iff (backend : Backend) (b1 b0 rp : Byte) :
    pairSyndrome backend b1 b0 rp = 0 ↔
      receivedClass b0 (loNibble rp) = .noError ∧ receivedClass b1 (hiNibble rp) = .noError := by
  simp only [eq_zero_iff_nibbles, loNibble_pairSyndrome, hiNibble_pairSyndrome, receivedClass, syndromeMap_eq_noError_iff]

/-! ### The decoder's answer -/

theorem dec1Out_eq_decoderResponse (backend : Backend) (v1 v0 : Bool) (rp b1 b0 : Byte) :
    dec1Out backend v0 rp b1 b0 = decoderResponse { pair := false, v1 := v1, v0 := v0, rp := rp, b1 := b1, b0 := b0 } := by
  cases v0 with
  | false => rfl
  | true => simp [dec1Out, decoderResponse, decodeByte_recomputed_xor_received]

/-- The pair's early answer to a zero syndrome is what its two clean lanes would give (R71, R72). -/
theorem dec2Out_eq_decoderResponse (backend : Backend) (v1 v0 : Bool) (rp b1 b0 : Byte) :
    dec2Out backend v1 v0 rp b1 b0 = decoderResponse { pair := true, v1 := v1, v0 := v0, rp := rp, b1 := b1, b0 := b0 } := by
  match v0, v1 with
  | false, _ => rfl
  | true, false => rfl
  | true, true =>
    by_cases h : pairSyndrome backend b1 b0 rp = 0
    · obtain ⟨clean0, clean1⟩ := (pairSyndrome_eq_zero_iff backend b1 b0 rp).mp h
      simp only [dec2Out, decoderResponse, if_pos h, clean0, clean1]
      rfl
    · simp only [dec2Out, decoderResponse, if_neg h, loNibble_pairSyndrome, hiNibble_pairSyndrome,
        decodeByte_recomputed_xor_received]
      rfl

/-- Whatever the decoder's inputs select, its outputs become `decoderResponse` of them (R70, R71, R77). -/
theorem exec_instrOfDecIn (p : DecIn) (s : State) :
    exec (instrOfDecIn p) s = .next (driveDecoder p (decoderResponse p) s) := by
  obtain ⟨pair, v1, v0, rp, b1, b0⟩ := p
  cases pair with
  | false => simp [instrOfDecIn, exec_dec1, dec1Out_eq_decoderResponse _ v1]
  | true => simp [instrOfDecIn, exec_dec2, dec2Out_eq_decoderResponse]

end Sys2Proof.Machine

/-! SUPPORT. The statements about the syndrome, its classes and the two decode operations' response words, settled. -/

namespace Sys2Proof.Machine

/-- Settles O19: every backend recomputes `PAR`, and taking a nibble commutes with XOR. -/
theorem syndromeIsRecomputedXorReceived : Obligations.SyndromeIsRecomputedXorReceived := by
  refine fun backend => ⟨syndrome_eq backend, fun b1 b0 rp => ⟨?_, ?_, ?_⟩⟩
  · rw [pairSyndrome_eq, combinedParityByte_eq_append]
  · rw [syndrome_eq, ← loNibble_eq_extractLsb', ← loNibble_eq_extractLsb', loNibble_pairSyndrome]
  · rw [syndrome_eq, ← hiNibble_eq_extractLsb', ← hiNibble_eq_extractLsb', hiNibble_pairSyndrome]

/-- Settles O21: the numbers of the parity bits, of the data bits, and those above them, each by its own lemma. -/
theorem syndromeClassesAsTabled : Obligations.SyndromeClassesAsTabled := by
  refine ⟨syndromeMap_eq_noError_iff, fun s hs => ?_, ?_, syndromeMap_pos,
    fun s hs => (syndromeMap_eq_uncorrectable_iff s).mpr hs, rfl, rfl, fun _ => rfl, rfl⟩
  · obtain ⟨j, rfl⟩ := exists_positionOf_check hs
    exact ⟨syndromeMap_positionOf_check j, j, rfl⟩
  · exact ⟨syndromeMap_pos 0, syndromeMap_pos 1, syndromeMap_pos 2, syndromeMap_pos 3,
      syndromeMap_pos 4, syndromeMap_pos 5, syndromeMap_pos 6, syndromeMap_pos 7⟩

/-- Settles O26: the response word is that of `decoderResponse` of the word's fields, in which no state occurs. -/
theorem decodersAreTotalAndDeterministic : Obligations.DecodersAreTotalAndDeterministic :=
  ⟨fun w => decRspWord (decoderResponse (decInOfWord w)), fun w s => ⟨_, rfl, exec_instrOfDecIn (decInOfWord w) s⟩⟩

end Sys2Proof.Machine

/-! SUPPORT. The levels a decode operation reports: what it answers as `decoderResponse`, the level of each lane by its syndrome,
and that a pair's level tells its two lanes' levels up to their order (spec/41_decoder.md R73, spec/60_exceptions.md R82). -/

namespace Sys2Proof.Machine

/-! ### Every operation completes -/

theorem exec_completes (i : Instr) (s : State) : ∃ t, exec i s = .next t := by
  cases i with
  | enc1 b1 b0 => exact ⟨_, exec_enc1 b1 b0 s⟩
  | enc2 b1 b0 => exact ⟨_, exec_enc2 b1 b0 s⟩
  | dec1 v1 v0 rp b1 b0 => exact ⟨_, exec_dec1 v1 v0 rp b1 b0 s⟩
  | dec2 v1 v0 rp b1 b0 => exact ⟨_, exec_dec2 v1 v0 rp b1 b0 s⟩

theorem decoderAnswers_dec1 (s : State) (v1 v0 : Bool) (rp b1 b0 : Byte) :
    DecoderAnswers (.dec1 v1 v0 rp b1 b0) s
      (decoderResponse { pair := false, v1 := v1, v0 := v0, rp := rp, b1 := b1, b0 := b0 }) :=
  ⟨_, exec_instrOfDecIn ⟨false, v1, v0, rp, b1, b0⟩ s, rfl⟩

theorem decoderAnswers_dec2 (s : State) (v1 v0 : Bool) (rp b1 b0 : Byte) :
    DecoderAnswers (.dec2 v1 v0 rp b1 b0) s
      (decoderResponse { pair := true, v1 := v1, v0 := v0, rp := rp, b1 := b1, b0 := b0 }) :=
  ⟨_, exec_instrOfDecIn ⟨true, v1, v0, rp, b1, b0⟩ s, rfl⟩

/-! ### The level of a response -/

theorem decoderResponse_single_level_absent (v1 : Bool) (rp b1 b0 : Byte) :
    (decoderResponse { pair := false, v1 := v1, v0 := false, rp := rp, b1 := b1, b0 := b0 }).level = 3 := rfl

theorem decoderResponse_single_level_present (v1 : Bool) (rp b1 b0 : Byte) :
    (decoderResponse { pair := false, v1 := v1, v0 := true, rp := rp, b1 := b1, b0 := b0 }).level =
      laneLevelOnPort (classLevel (syndromeMap (parity b0 ^^^ rp.extractLsb' 0 4))) := rfl

theorem decoderResponse_pair_level_absent {v1 v0 : Bool} (absent : v0 = false ∨ v1 = false) (rp b1 b0 : Byte) :
    (decoderResponse { pair := true, v1 := v1, v0 := v0, rp := rp, b1 := b1, b0 := b0 }).level = 3 := by
  match v0, v1, absent with
  | false, _, _ => rfl
  | true, false, _ => rfl

theorem decoderResponse_pair_level_present (rp b1 b0 : Byte) :
    (decoderResponse { pair := true, v1 := true, v0 := true, rp := rp, b1 := b1, b0 := b0 }).level =
      pairLevel (classLevel (syndromeMap (parity b0 ^^^ rp.extractLsb' 0 4)))
        (classLevel (syndromeMap (parity b1 ^^^ rp.extractLsb' 4 4))) := by
  rw [← loNibble_eq_extractLsb', ← hiNibble_eq_extractLsb']
  rfl

/-! ### One lane's level by its syndrome -/

/-- The levels a lane can have (R12, R68). -/
def laneLevels : List LaneLevel := [0, 1, 3]

theorem classLevel_mem_laneLevels (c : SyndromeClass) : classLevel c ∈ laneLevels := by
  cases c <;> simp [classLevel, laneLevels]

theorem laneLevelOnPort_mem_singleLevels : ∀ l ∈ laneLevels, laneLevelOnPort l ∈ singleLevels := by
  decide

theorem laneLevelOnPort_syndromeMap_eq_zero_iff (s : Nibble) : laneLevelOnPort (classLevel (syndromeMap s)) = 0 ↔ s = 0 := by
  revert s
  decide

theorem laneLevelOnPort_syndromeMap_eq_one_iff (s : Nibble) :
    laneLevelOnPort (classLevel (syndromeMap s)) = 1 ↔ 1 ≤ s.toNat ∧ s.toNat ≤ 12 := by
  revert s
  decide

theorem laneLevelOnPort_syndromeMap_eq_three_iff (s : Nibble) :
    laneLevelOnPort (classLevel (syndromeMap s)) = 3 ↔ 13 ≤ s.toNat := by
  revert s
  decide

/-! ### A pair's level by its lanes' levels -/

/-- The sums of two of 0, 1, 3 tell the summands up to their order. -/
theorem pairLevel_eq_iff_of_mem :
    ∀ l0 ∈ laneLevels, ∀ l1 ∈ laneLevels, ∀ m0 ∈ laneLevels, ∀ m1 ∈ laneLevels,
      pairLevel l0 l1 = pairLevel m0 m1 ↔ l0 = m0 ∧ l1 = m1 ∨ l0 = m1 ∧ l1 = m0 := by
  decide

theorem pairLevel_classLevel_eq_iff (c0 c1 d0 d1 : SyndromeClass) :
    pairLevel (classLevel c0) (classLevel c1) = pairLevel (classLevel d0) (classLevel d1) ↔
      classLevel c0 = classLevel d0 ∧ classLevel c1 = classLevel d1 ∨
      classLevel c0 = classLevel d1 ∧ classLevel c1 = classLevel d0 :=
  pairLevel_eq_iff_of_mem _ (classLevel_mem_laneLevels c0) _ (classLevel_mem_laneLevels c1)
    _ (classLevel_mem_laneLevels d0) _ (classLevel_mem_laneLevels d1)

/-- Two lanes of one class: the order does not matter. -/
theorem pairLevel_classLevel_eq_same_iff (c0 c1 d : SyndromeClass) :
    pairLevel (classLevel c0) (classLevel c1) = pairLevel (classLevel d) (classLevel d) ↔
      classLevel c0 = classLevel d ∧ classLevel c1 = classLevel d :=
  (pairLevel_classLevel_eq_iff c0 c1 d d).trans or_self_iff

theorem pairLevel_mem_pairLevels : ∀ l0 ∈ laneLevels, ∀ l1 ∈ laneLevels, pairLevel l0 l1 ∈ pairLevels := by
  decide

end Sys2Proof.Machine

/-! SUPPORT. The statements about the exceptions that are no exceptions: every operation completes, and every level and its
causes (spec/60_exceptions.md R80, R82), settled. -/

namespace Sys2Proof.Machine

/-- Settles O29: a lane's level is read off its syndrome, and a pair's level is one of six sums, each of one unordered pair of
lane levels. -/
theorem everyLevelAndItsCauses : Obligations.EveryLevelAndItsCauses := by
  intro s v1 v0 rp b1 b0
  refine ⟨⟨_, decoderAnswers_dec1 s v1 v0 rp b1 b0, ?_⟩, _, decoderAnswers_dec2 s v1 v0 rp b1 b0, ?_⟩
  · cases v0 with
    | false => simp [decoderResponse_single_level_absent, singleLevels]
    | true =>
      simp only [decoderResponse_single_level_present, laneLevelOnPort_syndromeMap_eq_zero_iff,
        laneLevelOnPort_syndromeMap_eq_one_iff, laneLevelOnPort_syndromeMap_eq_three_iff,
        laneLevelOnPort_mem_singleLevels _ (classLevel_mem_laneLevels _), true_and, Bool.true_eq_false, false_or, and_self]
  · by_cases absent : v0 = false ∨ v1 = false
    · rw [decoderResponse_pair_level_absent absent]
      exact ⟨fun _ => rfl, fun h0 h1 => by simp [h0, h1] at absent, by decide⟩
    · obtain ⟨rfl, rfl⟩ : v0 = true ∧ v1 = true := by simpa using absent
      rw [decoderResponse_pair_level_present]
      exact ⟨fun notBoth => absurd ⟨rfl, rfl⟩ notBoth,
        fun _ _ => ⟨_, _, rfl, rfl,
          pairLevel_classLevel_eq_same_iff _ _ .noError,
          pairLevel_classLevel_eq_iff _ _ .parityOnly .noError,
          pairLevel_classLevel_eq_same_iff _ _ .parityOnly,
          pairLevel_classLevel_eq_iff _ _ .uncorrectable .noError,
          pairLevel_classLevel_eq_iff _ _ .parityOnly .uncorrectable,
          pairLevel_classLevel_eq_same_iff _ _ .uncorrectable⟩,
        pairLevel_mem_pairLevels _ (classLevel_mem_laneLevels _) _ (classLevel_mem_laneLevels _)⟩

/-- Settles O40: each block's answer is the spec's function of its inputs, and without a reference that function is level 3. -/
theorem everyOperationCompletes : Obligations.EveryOperationCompletes :=
  ⟨exec_completes,
    fun s b1 b0 => ⟨⟨_, encoderAnswers_enc1 s b1 b0⟩, _, encoderAnswers_enc2 s b1 b0⟩,
    fun s v1 v0 rp b1 b0 => ⟨⟨_, decoderAnswers_dec1 s v1 v0 rp b1 b0⟩, ⟨_, decoderAnswers_dec2 s v1 v0 rp b1 b0⟩,
      ⟨_, decoderAnswers_dec1 s v1 false rp b1 b0, decoderResponse_single_level_absent v1 rp b1 b0⟩,
      fun absent => ⟨_, decoderAnswers_dec2 s v1 v0 rp b1 b0, decoderResponse_pair_level_absent absent rp b1 b0⟩⟩⟩

end Sys2Proof.Machine

/-! SUPPORT. Request words and their byte container as inverses of decoding, and the row of the opcode table that a request
selects (spec/30_encoding.md R41, R47, R48). -/

namespace Sys2Proof

/-! ### Request words -/

theorem encode_instrOfEncIn (p : EncIn) : encode (instrOfEncIn p) = .enc (encReqWord p.pair p.b1 p.b0) := by
  obtain ⟨pair, b1, b0⟩ := p
  cases pair <;> rfl

theorem encode_instrOfDecIn (p : DecIn) :
    encode (instrOfDecIn p) = .dec (decReqWord p.pair p.v1 p.v0 p.rp p.b1 p.b0) := by
  obtain ⟨pair, v1, v0, rp, b1, b0⟩ := p
  cases pair <;> rfl

@[simp] theorem decode_encode (i : Instr) : decode (encode i) = i := by
  cases i with
  | enc1 b1 b0 => exact congrArg instrOfEncIn (encInOfWord_encReqWord false b1 b0)
  | enc2 b1 b0 => exact congrArg instrOfEncIn (encInOfWord_encReqWord true b1 b0)
  | dec1 v1 v0 rp b1 b0 => exact congrArg instrOfDecIn (decInOfWord_decReqWord false v1 v0 rp b1 b0)
  | dec2 v1 v0 rp b1 b0 => exact congrArg instrOfDecIn (decInOfWord_decReqWord true v1 v0 rp b1 b0)

@[simp] theorem encode_decode (r : Request) : encode (decode r) = r := by
  cases r with
  | enc w => exact (encode_instrOfEncIn _).trans (congrArg Request.enc (encReqWord_encInOfWord w))
  | dec w => exact (encode_instrOfDecIn _).trans (congrArg Request.dec (decReqWord_decInOfWord w))

/-! ### The container's last byte: a word's top bits below, zeros above -/

theorem extractLsb'_setWidth_above {n : Nat} (x : BitVec n) (m k : Nat) : (x.setWidth m).extractLsb' n k = 0 := by
  ext i hi
  simp

theorem setWidth_extractLsb'_of_above_eq_zero {m n k : Nat} {x : BitVec m} (width : n + k = m)
    (above : x.extractLsb' n k = 0) : (x.extractLsb' 0 n).setWidth m = x := by
  apply BitVec.eq_of_getLsbD_eq
  intro i hi
  by_cases low : i < n
  · simp [low, hi]
  · have bit := congrArg (fun v : BitVec k => v.getLsbD (i - n)) above
    have inRange : i - n < k := by omega
    have index : n + (i - n) = i := by omega
    simpa [low, inRange, index] using bit.symm

/-! ### The container -/

theorem extractLsb'_append_bytes_enc (w : BitVec 17) :
    w.extractLsb' 16 1 ++ w.extractLsb' 8 8 ++ w.extractLsb' 0 8 = w := by
  have upper : w.extractLsb' 16 1 ++ w.extractLsb' 8 8 = w.extractLsb' 8 9 :=
    BitVec.extractLsb'_append_extractLsb'_eq_extractLsb' rfl
  rw [upper]
  exact (BitVec.extractLsb'_append_extractLsb'_eq_extractLsb' rfl).trans BitVec.extractLsb'_eq_self

theorem extractLsb'_append_bytes_dec (w : BitVec 27) :
    w.extractLsb' 24 3 ++ w.extractLsb' 16 8 ++ w.extractLsb' 8 8 ++ w.extractLsb' 0 8 = w := by
  have upper : w.extractLsb' 24 3 ++ w.extractLsb' 16 8 = w.extractLsb' 16 11 :=
    BitVec.extractLsb'_append_extractLsb'_eq_extractLsb' rfl
  have upper' : w.extractLsb' 16 11 ++ w.extractLsb' 8 8 = w.extractLsb' 8 19 :=
    BitVec.extractLsb'_append_extractLsb'_eq_extractLsb' rfl
  rw [upper, upper']
  exact (BitVec.extractLsb'_append_extractLsb'_eq_extractLsb' rfl).trans BitVec.extractLsb'_eq_self

theorem requestOfBytes_bytesOfRequest (r : Request) : requestOfBytes (bytesOfRequest r) = .ok r := by
  cases r with
  | enc w =>
    simp [bytesOfRequest, requestOfBytes, extractLsb'_setWidth_above, BitVec.extractLsb'_setWidth_of_le,
      extractLsb'_append_bytes_enc]
  | dec w =>
    simp [bytesOfRequest, requestOfBytes, extractLsb'_setWidth_above, BitVec.extractLsb'_setWidth_of_le,
      extractLsb'_append_bytes_dec]

/-- Above the low part of a concatenation stand the bits of the high part. -/
theorem extractLsb'_append_above {m n : Nat} (hi : BitVec m) (lo : BitVec n) (k len : Nat) :
    (hi ++ lo).extractLsb' (n + k) len = hi.extractLsb' k len := by
  rw [BitVec.extractLsb'_append_eq_of_le (Nat.le_add_right n k), Nat.add_sub_cancel_left]

theorem bytesOfRequest_enc_append (top : BitVec 1) (x1 x0 : Byte) :
    bytesOfRequest (.enc (top ++ x1 ++ x0)) = [x0, x1, top.setWidth 8] := by
  have first : (top ++ x1 ++ x0).extractLsb' 0 8 = x0 := BitVec.extractLsb'_append_eq_right
  have second : (top ++ x1 ++ x0).extractLsb' 8 8 = x1 :=
    (extractLsb'_append_above _ x0 0 8).trans BitVec.extractLsb'_append_eq_right
  have third : (top ++ x1 ++ x0).extractLsb' 16 1 = top :=
    (extractLsb'_append_above _ x0 8 1).trans BitVec.extractLsb'_append_eq_left
  change [(top ++ x1 ++ x0).extractLsb' 0 8, (top ++ x1 ++ x0).extractLsb' 8 8,
    ((top ++ x1 ++ x0).extractLsb' 16 1).setWidth 8] = _
  rw [first, second, third]

theorem bytesOfRequest_dec_append (top : BitVec 3) (x2 x1 x0 : Byte) :
    bytesOfRequest (.dec (top ++ x2 ++ x1 ++ x0)) = [x0, x1, x2, top.setWidth 8] := by
  have first : (top ++ x2 ++ x1 ++ x0).extractLsb' 0 8 = x0 := BitVec.extractLsb'_append_eq_right
  have second : (top ++ x2 ++ x1 ++ x0).extractLsb' 8 8 = x1 :=
    (extractLsb'_append_above _ x0 0 8).trans BitVec.extractLsb'_append_eq_right
  have third : (top ++ x2 ++ x1 ++ x0).extractLsb' 16 8 = x2 :=
    (extractLsb'_append_above _ x0 8 8).trans
      ((extractLsb'_append_above _ x1 0 8).trans BitVec.extractLsb'_append_eq_right)
  have fourth : (top ++ x2 ++ x1 ++ x0).extractLsb' 24 3 = top :=
    (extractLsb'_append_above _ x0 16 3).trans
      ((extractLsb'_append_above _ x1 8 3).trans BitVec.extractLsb'_append_eq_left)
  change [(top ++ x2 ++ x1 ++ x0).extractLsb' 0 8, (top ++ x2 ++ x1 ++ x0).extractLsb' 8 8,
    (top ++ x2 ++ x1 ++ x0).extractLsb' 16 8, ((top ++ x2 ++ x1 ++ x0).extractLsb' 24 3).setWidth 8] = _
  rw [first, second, third, fourth]

/-- Well-formed bytes carry a request, and they are the bytes of that request. -/
theorem exists_request_of_wellFormed {bytes : List Byte} (h : requestBytesWellFormed bytes = true) :
    ∃ r, requestOfBytes bytes = .ok r ∧ bytesOfRequest r = bytes := by
  match bytes, h with
  | [x0, x1, x2], h =>
    have above : x2.extractLsb' 1 7 = 0 := eq_of_beq h
    refine ⟨.enc (x2.extractLsb' 0 1 ++ x1 ++ x0), if_pos above, ?_⟩
    rw [bytesOfRequest_enc_append, setWidth_extractLsb'_of_above_eq_zero rfl above]
  | [x0, x1, x2, x3], h =>
    have above : x3.extractLsb' 3 5 = 0 := eq_of_beq h
    refine ⟨.dec (x3.extractLsb' 0 3 ++ x2 ++ x1 ++ x0), if_pos above, ?_⟩
    rw [bytesOfRequest_dec_append, setWidth_extractLsb'_of_above_eq_zero rfl above]

theorem requestOfBytes_of_not_wellFormed {bytes : List Byte} (h : requestBytesWellFormed bytes = false)
    (size : bytes.length = 3 ∨ bytes.length = 4) : requestOfBytes bytes = .error .bitsAboveWord := by
  match bytes, size with
  | [x0, x1, x2], _ => exact if_neg (ne_of_beq_false h)
  | [x0, x1, x2, x3], _ => exact if_neg (ne_of_beq_false h)

theorem requestOfBytes_of_other_length {bytes : List Byte} (h3 : bytes.length ≠ 3) (h4 : bytes.length ≠ 4) :
    requestOfBytes bytes = .error .noSuchFormat := by
  unfold requestOfBytes
  split
  · exact absurd rfl h3
  · exact absurd rfl h4
  · rfl

theorem decodeBytes_of_ok {bytes : List Byte} {r : Request} (h : requestOfBytes bytes = .ok r) :
    decodeBytes bytes = .ok (decode r) := by
  rw [decodeBytes, h]
  rfl

theorem decodeBytes_of_error {bytes : List Byte} {e : DecodeError} (h : requestOfBytes bytes = .error e) :
    decodeBytes bytes = .error e := by
  rw [decodeBytes, h]
  rfl

/-! ### The opcode table -/

/-- Of the two rows of the block, the word's one opcode bit picks one (R48). -/
theorem selectedMnemonics_enc (w : BitVec 17) :
    (opcodeTable.filter fun row => row.selects (.enc w)).map OpcodeRow.mnemonic =
      [if w.getLsbD 16 then "ENC2" else "ENC1"] := by
  have masked : w.toNat &&& 0x10000 = if w.getLsbD 16 then 0x10000 else 0 := Laws.and_twoPow_toNat w 16
  simp only [opcodeTable, OpcodeRow.selects, Request.block, Request.value, List.filter_cons, masked]
  cases w.getLsbD 16 <;> rfl

theorem selectedMnemonics_dec (w : BitVec 27) :
    (opcodeTable.filter fun row => row.selects (.dec w)).map OpcodeRow.mnemonic =
      [if w.getLsbD 26 then "DEC2" else "DEC1"] := by
  have masked : w.toNat &&& 0x4000000 = if w.getLsbD 26 then 0x4000000 else 0 := Laws.and_twoPow_toNat w 26
  simp only [opcodeTable, OpcodeRow.selects, Request.block, Request.value, List.filter_cons, masked]
  cases w.getLsbD 26 <;> rfl

theorem mnemonic_instrOfEncIn (p : EncIn) : (instrOfEncIn p).mnemonic = if p.pair then "ENC2" else "ENC1" := by
  unfold instrOfEncIn
  split <;> rfl

theorem mnemonic_instrOfDecIn (p : DecIn) : (instrOfDecIn p).mnemonic = if p.pair then "DEC2" else "DEC1" := by
  unfold instrOfDecIn
  split <;> rfl

/-! ### Written forms -/

theorem canonical_toInstr (form : AsmForm) : form.toInstr.canonical = true := by
  cases form with
  | enc1 b0 => rfl
  | enc2 b0 b1 => rfl
  | dec1 v0 b0 rp => simp [AsmForm.toInstr, Instr.canonical, extractLsb'_setWidth_above]
  | dec2 v0 v1 b0 b1 rp => rfl

theorem exists_form_of_canonical {i : Instr} (h : i.canonical = true) : ∃ form : AsmForm, form.toInstr = i := by
  cases i with
  | enc1 b1 b0 =>
    obtain rfl : b1 = 0 := eq_of_beq h
    exact ⟨.enc1 b0, rfl⟩
  | enc2 b1 b0 => exact ⟨.enc2 b0 b1, rfl⟩
  | dec1 v1 v0 rp b1 b0 =>
    simp only [Instr.canonical, Bool.and_eq_true, Bool.not_eq_true', beq_iff_eq] at h
    obtain ⟨⟨rfl, above⟩, rfl⟩ := h
    refine ⟨.dec1 v0 b0 (rp.extractLsb' 0 4), ?_⟩
    rw [AsmForm.toInstr, setWidth_extractLsb'_of_above_eq_zero rfl above]
  | dec2 v1 v0 rp b1 b0 => exact ⟨.dec2 v0 v1 b0 b1 rp, rfl⟩

end Sys2Proof

/-! SUPPORT. The statements about request words, their bytes, the opcode table and the written forms, settled. -/

namespace Sys2Proof

/-- Settles O1: each field is read back from the concatenation, and the container carries every request. -/
theorem decodeOfEncodeIsIdentity : Obligations.DecodeOfEncodeIsIdentity := by
  refine fun i => ⟨decode_encode i, ?_⟩
  rw [decodeBytes_of_ok (requestOfBytes_bytesOfRequest _), decode_encode]

/-- Settles O2: each word is the concatenation of its fields, and the container carries every request. -/
theorem encodeOfDecodeIsIdentity : Obligations.EncodeOfDecodeIsIdentity :=
  fun r => ⟨encode_decode r, requestOfBytes_bytesOfRequest r⟩

/-- Settles O3: bytes carry a request by their number and by the bits above its word. -/
theorem bytesDecodeOrAreRefusedByName : Obligations.BytesDecodeOrAreRefusedByName := by
  refine fun bytes => ⟨fun h => ?_, fun h size => ?_, fun h3 h4 => ?_⟩
  · obtain ⟨r, carried, same⟩ := exists_request_of_wellFormed h
    exact ⟨decode r, decodeBytes_of_ok carried, by rw [encode_decode, same]⟩
  · exact decodeBytes_of_error (requestOfBytes_of_not_wellFormed h size)
  · exact decodeBytes_of_error (requestOfBytes_of_other_length h3 h4)

/-- Settles O4: within a block the two rows differ in the one bit that is `pair`. -/
theorem everyRequestSelectsItsOneRow : Obligations.EveryRequestSelectsItsOneRow := by
  intro r
  cases r with
  | enc w => rw [selectedMnemonics_enc, decode, mnemonic_instrOfEncIn, encInOfWord]
  | dec w => rw [selectedMnemonics_dec, decode, mnemonic_instrOfDecIn, decInOfWord]

/-- Settles O5: the seven words, each decoded. -/
theorem printedRequestWordsDecode : Obligations.PrintedRequestWordsDecode := by
  refine ⟨?_, ?_, ?_, ?_, ?_, ?_, ?_⟩ <;> rfl

/-- Settles O6: a written form leaves out exactly the ignored fields. -/
theorem writtenFormsAreTheCanonicalOperations : Obligations.WrittenFormsAreTheCanonicalOperations :=
  fun _ => ⟨exists_form_of_canonical, fun ⟨form, same⟩ => same ▸ canonical_toInstr form⟩

end Sys2Proof

/-! SUPPORT. What one step does, said once: the block's answer to the request of the action, then what the caller takes from
it; and what each of the two keeps (spec/10_state.md R15, R19; spec/70_reset_and_hazards.md R93, R95). -/

namespace Sys2Proof.Machine

/-! ### A request is answered on its own block's ports -/

/-- The state after the block that `r` is presented to has answered it. -/
def answered (r : Request) (s : State) : State :=
  match r with
  | .enc w => driveEncoder (encInOfWord w) (encoderResponse (encInOfWord w)) s
  | .dec w => driveDecoder (decInOfWord w) (decoderResponse (decInOfWord w)) s

/-- The operation that a request decodes to is that answer (R60, R77). -/
theorem exec_decode (r : Request) (s : State) : exec (decode r) s = .next (answered r s) := by
  cases r with
  | enc w => exact exec_instrOfEncIn (encInOfWord w) s
  | dec w => exact exec_instrOfDecIn (decInOfWord w) s

@[simp] theorem answered_config (r : Request) (s : State) : (answered r s).config = s.config := by
  cases r <;> rfl

@[simp] theorem answered_script (r : Request) (s : State) : (answered r s).script = s.script := by
  cases r <;> rfl

theorem answered_with_config (r : Request) (s : State) (other : Config) :
    answered r { s with config := other } = { answered r s with config := other } := by
  cases r <;> rfl

/-- A block that answers leaves its outputs the function of its inputs, and the other block's ports alone. -/
theorem portsSettled_answered {s : State} (settled : s.PortsSettled) (r : Request) : (answered r s).PortsSettled := by
  obtain ⟨encoder, decoder⟩ := settled
  cases r with
  | enc w => exact ⟨rfl, decoder⟩
  | dec w => exact ⟨encoder, rfl⟩

/-! ### What the caller takes leaves the ports, the backends and the script alone -/

@[simp] theorem afterAction_config (s : State) (action : CallerAction) : (afterAction s action).config = s.config := by
  cases action <;> simp [afterAction]

@[simp] theorem afterAction_script (s : State) (action : CallerAction) : (afterAction s action).script = s.script := by
  cases action <;> simp [afterAction]

@[simp] theorem afterAction_encIn (s : State) (action : CallerAction) : (afterAction s action).encIn = s.encIn := by
  cases action <;> simp [afterAction]

@[simp] theorem afterAction_par (s : State) (action : CallerAction) : (afterAction s action).par = s.par := by
  cases action <;> simp [afterAction]

@[simp] theorem afterAction_decIn (s : State) (action : CallerAction) : (afterAction s action).decIn = s.decIn := by
  cases action <;> simp [afterAction]

@[simp] theorem afterAction_decOut (s : State) (action : CallerAction) : (afterAction s action).decOut = s.decOut := by
  cases action <;> simp [afterAction]

theorem portsSettled_afterAction (s : State) (action : CallerAction) :
    (afterAction s action).PortsSettled ↔ s.PortsSettled := by
  simp [State.PortsSettled]

/-! ### What the caller takes does not depend on the backends -/

theorem takeParity_with_config (s : State) (other : Config) :
    takeParity { s with config := other } = { takeParity s with config := other } := by
  rcases s with ⟨_, _, _ | par, _, _, _, _, _, _, _⟩ <;> rfl

theorem takeLevel_with_config (s : State) (other : Config) :
    takeLevel { s with config := other } = { takeLevel s with config := other } := by
  rcases s with ⟨_, _, _, _, _ | out, _, _, _, _, _⟩ <;> rfl

theorem takeFirstByte_with_config (s : State) (other : Config) :
    takeFirstByte { s with config := other } = { takeFirstByte s with config := other } := by
  rcases s with ⟨_, _, _, _, _ | out, _, _, _, _, _⟩ <;> rfl

theorem takeSecondByte_with_config (s : State) (other : Config) :
    takeSecondByte { s with config := other } = { takeSecondByte s with config := other } := by
  rcases s with ⟨_, _, _, _, _ | out, _, _, _, _, _⟩ <;> rfl

theorem hitCell_with_config (s : State) (hit : ChannelHit) (other : Config) :
    hitCell { s with config := other } hit = { hitCell s hit with config := other } := by
  cases hit <;> rfl

theorem afterAction_with_config (s : State) (action : CallerAction) (other : Config) :
    afterAction { s with config := other } action = { afterAction s action with config := other } := by
  cases action with
  | present r => rfl
  | enc1 => exact takeParity_with_config s other
  | enc2 => exact takeParity_with_config s other
  | xor hit => exact hitCell_with_config s hit other
  | dec1 => simp only [afterAction, takeLevel_with_config, takeFirstByte_with_config]
  | dec1N => exact takeLevel_with_config s other
  | dec2 => simp only [afterAction, takeLevel_with_config, takeFirstByte_with_config, takeSecondByte_with_config]

theorem requestOfAction_with_config (s : State) (action : CallerAction) (other : Config) :
    requestOfAction { s with config := other } action = requestOfAction s action := by
  cases action <;> rfl

theorem requestOfAction_with_script (s : State) (action : CallerAction) (rest : List CallerAction) :
    requestOfAction { s with script := rest } action = requestOfAction s action := by
  cases action <;> rfl

/-! ### One action -/

/-- The state after the block that the action uses has answered; the channel's XOR uses none. -/
def presented (action : CallerAction) (s : State) : State :=
  (requestOfAction s action).elim s fun r => answered r s

/-- Every action completes: the block answers, then the caller takes what it takes (R95). -/
theorem act_eq (action : CallerAction) (s : State) : act action s = .next (afterAction (presented action s) action) := by
  unfold act presented
  cases requestOfAction s action with
  | none => rfl
  | some r => rw [answerRequest, exec_decode]; rfl

/-- At most one block answers an action. -/
theorem presented_cases (action : CallerAction) (s : State) :
    presented action s = s ∨ ∃ r, presented action s = answered r s := by
  unfold presented
  cases requestOfAction s action with
  | none => exact .inl rfl
  | some r => exact .inr ⟨r, rfl⟩

@[simp] theorem presented_config (action : CallerAction) (s : State) : (presented action s).config = s.config := by
  obtain h | ⟨r, h⟩ := presented_cases action s <;> simp [h]

@[simp] theorem presented_script (action : CallerAction) (s : State) : (presented action s).script = s.script := by
  obtain h | ⟨r, h⟩ := presented_cases action s <;> simp [h]

theorem portsSettled_presented {s : State} (settled : s.PortsSettled) (action : CallerAction) :
    (presented action s).PortsSettled := by
  obtain h | ⟨r, h⟩ := presented_cases action s
  · rwa [h]
  · rw [h]
    exact portsSettled_answered settled r

theorem presented_with_config (action : CallerAction) (s : State) (other : Config) :
    presented action { s with config := other } = { presented action s with config := other } := by
  unfold presented
  rw [requestOfAction_with_config]
  cases requestOfAction s action with
  | none => rfl
  | some r => exact answered_with_config r s other

theorem act_with_config (action : CallerAction) (s : State) (other : Config) :
    act action { s with config := other } = thenNext (fun t => { t with config := other }) (act action s) := by
  rw [act_eq, act_eq, presented_with_config, afterAction_with_config]
  rfl

/-! ### One step -/

/-- Everything a step can do: nothing is left to do and it is refused, or the next action is done. -/
theorem step_cases (s : State) :
    s.script = [] ∧ step s = .refused .nothingPresented ∨
    ∃ action rest, s.script = action :: rest ∧
      step s = .next (afterAction (presented action { s with script := rest }) action) := by
  cases h : s.script with
  | nil => exact .inl ⟨rfl, step_nil h⟩
  | cons action rest => exact .inr ⟨action, rest, rfl, (step_cons h).trans (act_eq action _)⟩

theorem step_takes_one_action {s : State} {action : CallerAction} {rest : List CallerAction}
    (h : s.script = action :: rest) : ∃ t, step s = .next t ∧ t.script = rest ∧ t.config = s.config :=
  ⟨_, (step_cons h).trans (act_eq action _), by simp, by simp⟩

/-- A run of `n` steps needs `n` actions, and they are enough. -/
theorem runsFor_iff (n : Nat) (s : State) : runsFor n s ↔ n ≤ s.script.length := by
  induction n generalizing s with
  | zero => exact ⟨fun _ => Nat.zero_le _, fun _ => trivial⟩
  | succ n ih =>
    cases h : s.script with
    | nil => simp [runsFor, step_nil h]
    | cons action rest =>
      obtain ⟨t, stepped, script, -⟩ := step_takes_one_action h
      simp [runsFor, stepped, ih, script]

/-- A step on a presented request is the operation it decodes to, with the action taken off (R95). -/
theorem step_of_present {s : State} {r : Request} {rest : List CallerAction} (h : s.script = .present r :: rest) :
    step s = exec (decode r) { s with script := rest } := by
  rw [step_cons h, act_eq, exec_decode]
  rfl

/-- A statement that presents the inputs `p` to the encoder (95_test_vectors.md section 4.1). -/
theorem step_presenting_to_encoder {s : State} {action : CallerAction} {rest : List CallerAction} (p : EncIn)
    (h : s.script = action :: rest) (request : requestOfAction s action = some (encode (instrOfEncIn p))) :
    step s = .next (afterAction (driveEncoder p (encoderResponse p) { s with script := rest }) action) := by
  rw [step_cons h, act_of_request ((requestOfAction_with_script s action rest).trans request), decode_encode,
    exec_instrOfEncIn]
  rfl

/-- A statement that presents the inputs `p` to the decoder (95_test_vectors.md section 4.1). -/
theorem step_presenting_to_decoder {s : State} {action : CallerAction} {rest : List CallerAction} (p : DecIn)
    (h : s.script = action :: rest) (request : requestOfAction s action = some (encode (instrOfDecIn p))) :
    step s = .next (afterAction (driveDecoder p (decoderResponse p) { s with script := rest }) action) := by
  rw [step_cons h, act_of_request ((requestOfAction_with_script s action rest).trans request), decode_encode,
    exec_instrOfDecIn]
  rfl

/-- A table word that decodes stands for a request, which is put before all the caller would do. -/
theorem withFetchWord_of_decodeTableWord {nbits w : Nat} {i : Instr} (h : decodeTableWord nbits w = some i) (s : State) :
    ∃ r, decode r = i ∧ s.withFetchWord nbits w = { s with script := .present r :: s.script } := by
  unfold decodeTableWord at h
  unfold State.withFetchWord
  cases word : requestOfTableWord nbits w with
  | error e => simp [word, Except.map, Except.toOption] at h
  | ok r => exact ⟨r, by simpa [word, Except.map, Except.toOption] using h, rfl⟩

end Sys2Proof.Machine

/-! SUPPORT. The statements about the whole machine and about the caller's actions, settled. -/

namespace Sys2Proof.Machine

/-- Settles O14: the request of an action, the block's answer and what the caller takes are the same for any backends. -/
theorem stepDoesNotDependOnBackends : Obligations.StepDoesNotDependOnBackends := by
  intro s other
  obtain ⟨h, stops⟩ | ⟨action, rest, h, -⟩ := step_cases s
  · rw [stops]
    exact step_nil h
  · rw [step_cons h, step_cons (s := { s with config := other }) h]
    exact act_with_config action { s with script := rest } other

/-- Settles O46: an answer settles its block's ports, and what the caller takes changes no port. -/
theorem stepKeepsPortsSettled : Obligations.StepKeepsPortsSettled := by
  intro s t settled stepped
  obtain ⟨-, refused⟩ | ⟨action, rest, -, next⟩ := step_cases s
  · rw [refused] at stepped
    cases stepped
  · rw [next] at stepped
    cases stepped
    exact (portsSettled_afterAction _ action).mpr (portsSettled_presented (s := { s with script := rest }) settled action)

/-- Settles O41: an answer's ports are those of `encoderResponse` and `decoderResponse`, in which no state occurs. -/
theorem answersIgnoreHistory : Obligations.AnswersIgnoreHistory := by
  refine fun s s' => ⟨fun w t t' h h' => ?_, fun w t t' h h' => ?_⟩
  all_goals
    rw [exec_decode] at h h'
    cases h
    cases h'
    exact ⟨rfl, rfl⟩

/-- Settles O42: the two answers drive different ports. -/
theorem blocksCommute : Obligations.BlocksCommute :=
  fun s w w' => ⟨_, _, _, exec_decode (.enc w) s, exec_decode (.dec w') _, exec_decode (.dec w') s, exec_decode (.enc w) _⟩

/-- Settles O43: the caller takes nothing after a raw request. -/
theorem stepRunsThePresentedRequest : Obligations.StepRunsThePresentedRequest := by
  rintro s r rest _ h rfl
  exact step_of_present h

/-- Settles O44: the word's request is put first and taken off again. -/
theorem tableWordRunsNext : Obligations.TableWordRunsNext := by
  intro s nbits w i h
  obtain ⟨r, rfl, placed⟩ := withFetchWord_of_decodeTableWord h s
  rw [placed]
  exact step_of_present rfl

/-- Settles O45: by induction on the number of steps, each of which takes one action. -/
theorem runsLastAsLongAsTheScript : Obligations.RunsLastAsLongAsTheScript :=
  ⟨fun _ => step_nil, fun _ _ _ => step_takes_one_action, fun s n => runsFor_iff n s⟩

/-- Settles O47: both blocks' ports are `none`. -/
theorem resetPortsCarryNothing : Obligations.ResetPortsCarryNothing :=
  ⟨rfl, rfl, rfl, rfl, rfl, rfl⟩

/-- Settles O48: the request is the written form on the cells, and `P` takes `par`. -/
theorem callerEncodes : Obligations.CallerEncodes :=
  fun s _ => ⟨fun h => step_presenting_to_encoder ⟨false, 0, s.cellB0⟩ h rfl,
    fun h => step_presenting_to_encoder ⟨true, s.cellB1, s.cellB0⟩ h rfl⟩

/-- Settles O49: the request is the written form on the cells, and the cells take the level and the bytes with references. -/
theorem callerDecodes : Obligations.CallerDecodes :=
  fun s _ => ⟨
    fun h => ⟨_, _, rfl, rfl,
      step_presenting_to_decoder ⟨false, false, true, (loNibble s.cellP).setWidth 8, 0, s.cellB0⟩ h rfl⟩,
    fun h => ⟨_, _, rfl, rfl, rfl,
      step_presenting_to_decoder ⟨false, false, false, (loNibble s.cellP).setWidth 8, 0, s.cellB0⟩ h rfl⟩,
    fun h => ⟨_, _, rfl, rfl, step_presenting_to_decoder ⟨true, true, true, s.cellP, s.cellB1, s.cellB0⟩ h rfl⟩⟩

/-- Settles O50: the channel's XOR presents no request. -/
theorem channelHitsOneCell : Obligations.ChannelHitsOneCell := by
  refine fun s rest m l => ⟨fun h => ?_, fun h => ?_, fun h => ?_, fun h => ?_⟩
  all_goals
    rw [step_cons h, act_xor]
    rfl

end Sys2Proof.Machine

/-! SUPPORT. Single bits of `PAR`, the positions, the byte image of a table, the serial chain stage by stage, and the entries of
the correction table as the per-byte procedure reads them (spec/40_encoder.md R50 to R56, spec/20_memory.md R26,
spec/41_decoder.md R65 to R68). -/

namespace Sys2Proof.Machine

/-! ### The bits of `PAR` and the positions -/

theorem positionIfSet_getLsbD (b : Byte) (i : Fin 8) (j : Nat) :
    (positionIfSet b i).getLsbD j = (b.getLsbD i && (pos i).getLsbD j) := by
  unfold positionIfSet
  cases b.getLsbD i <;> simp

/-- Bit `j` of `PAR(b)` is the XOR of the data bits whose positions have bit `j` (R51, R52). -/
theorem parity_getLsbD (b : Byte) (j : Nat) :
    (parity b).getLsbD j = (dataBits.map fun i : Fin 8 => b.getLsbD i && (pos i).getLsbD j).foldr (· ^^ ·) false := by
  rw [parity_eq_foldr]
  induction dataBits with
  | nil => simp
  | cons i bits ih => simp only [List.map_cons, List.foldr_cons, BitVec.getLsbD_xor, positionIfSet_getLsbD, ih]

theorem parity_bitMask (i : Fin 8) : parity (bitMask i) = pos i := by
  revert i
  decide

theorem pos_injective : ∀ i j : Fin 8, pos i = pos j → i = j := by
  decide

theorem pos_ne_zero (i : Fin 8) : pos i ≠ 0 := by
  revert i
  decide

theorem pos_ne_twoPow : ∀ (i : Fin 8) (j : Fin 4), pos i ≠ (1 : Nibble) <<< j.val := by
  decide

/-! ### The byte image of a table -/

theorem length_byteImage {n : Nat} (T : Rom n 4) : (byteImage T).length = 2 ^ n :=
  (List.length_map _).trans T.depth

theorem upperNibble_of_mem_byteImage {n : Nat} {T : Rom n 4} {x : Byte} (h : x ∈ byteImage T) :
    x.extractLsb' 4 4 = 0 := by
  obtain ⟨entry, -, rfl⟩ := List.mem_map.mp h
  exact extractLsb'_setWidth_above entry 8 4

/-! ### The serial chain -/

theorem take_succ_dataBits (i : Fin 8) : dataBits.take (i.val + 1) = dataBits.take i.val ++ [i] := by
  revert i
  decide

/-- Stage `i` of the chain (R56). -/
theorem serialAcc_succ (b : Byte) (i : Fin 8) : serialAcc b (i.val + 1) = serialStage b (serialAcc b i.val) i := by
  unfold serialAcc
  rw [take_succ_dataBits, List.foldl_append]
  rfl

/-! ### The entries of the correction table -/

theorem bitMask_ne_zero (i : Fin 8) : bitMask i ≠ 0#8 := by
  revert i
  decide

/-- Every class is the class of a syndrome (R63). -/
theorem syndromeMap_surjective (c : SyndromeClass) : ∃ s, syndromeMap s = c := by
  cases c with
  | noError => exact ⟨0, rfl⟩
  | parityOnly => exact ⟨1, rfl⟩
  | dataBit i => exact ⟨pos i, syndromeMap_pos i⟩
  | uncorrectable => exact ⟨13, rfl⟩

theorem syndromeMap_eq_of_correctionEntry_eq :
    ∀ s s' : Nibble, correctionEntry s = correctionEntry s' → syndromeMap s = syndromeMap s' := by
  decide

/-- An entry of the table tells the class of its syndrome (R65, R67). -/
theorem correctionEntry_eq_entryOfClass_iff (s : Nibble) (c : SyndromeClass) :
    correctionEntry s = entryOfClass c ↔ syndromeMap s = c := by
  obtain ⟨s', rfl⟩ := syndromeMap_surjective c
  rw [← correctionEntry_eq_entryOfClass]
  refine ⟨syndromeMap_eq_of_correctionEntry_eq s s', fun same => ?_⟩
  rw [correctionEntry_eq_entryOfClass, correctionEntry_eq_entryOfClass, same]

/-! ### The per-byte procedure, step by step -/

theorem decodeByte_of_zero (b : Byte) {s : Nibble} (zero : s = 0) : decodeByte b s = (0, b) :=
  if_pos zero

theorem decodeByte_of_parityOnly_entry (b : Byte) {s : Nibble} (nonzero : s ≠ 0)
    (entry : correctionEntry s = ctParityOnly) : decodeByte b s = (1, b) := by
  rw [decodeByte, if_neg nonzero, if_pos entry]

theorem decodeByte_of_uncorrectable_entry (b : Byte) {s : Nibble} (nonzero : s ≠ 0)
    (entry : correctionEntry s = ctUncorrectable) : decodeByte b s = (3, b) := by
  have other : correctionEntry s ≠ ctParityOnly := by rw [entry]; decide
  rw [decodeByte, if_neg nonzero, if_neg other, if_pos entry]

theorem decodeByte_of_mask_entry (b : Byte) {s : Nibble} (nonzero : s ≠ 0) (other : correctionEntry s ≠ ctParityOnly)
    (other' : correctionEntry s ≠ ctUncorrectable) : decodeByte b s = (1, b ^^^ correctionEntry s) := by
  rw [decodeByte, if_neg nonzero, if_neg other, if_neg other']

theorem decodeByte_of_class (b : Byte) {s : Nibble} {c : SyndromeClass} (h : syndromeMap s = c) :
    decodeByte b s = (classLevel c, classByte b c) := by
  rw [decodeByte_eq, h]

end Sys2Proof.Machine

/-! SUPPORT. The statements about `PAR`, the tables and the per-byte procedure, settled. -/

namespace Sys2Proof.Machine

/-- Settles O8: the data bits of each equation are those whose positions have that bit. -/
theorem parityCheckEquations : Obligations.ParityCheckEquations := by
  intro b
  simp only [parity_getLsbD]
  simp [dataBits, pos]

/-- Settles O9: `PAR` is a sum over the data bits, and a one-bit byte's sum is its position. -/
theorem parityIsLinear : Obligations.ParityIsLinear :=
  ⟨parity_xor, fun b i => by rw [parity_xor, parity_bitMask], pos_injective, fun i => ⟨pos_ne_zero i, pos_ne_twoPow i⟩⟩

/-- Settles O10: each entry is `PAR`, and widening a nibble puts zeros above it. -/
theorem fullTableHoldsParity : Obligations.FullTableHoldsParity :=
  ⟨romRead_fullLut, (romRead_fullLut 0xFF).trans (by decide), length_byteImage fullLut,
    fun _ => upperNibble_of_mem_byteImage⟩

/-- Settles O12: one more stage takes one more bit. -/
theorem serialBackendIsAccumulatorChain : Obligations.SerialBackendIsAccumulatorChain :=
  fun b => ⟨rfl, serialAcc_succ b, parityBy_serialXor b⟩

/-- Settles O22: the entries of different classes differ. -/
theorem correctionTableStoresSyndromeMap : Obligations.CorrectionTableStoresSyndromeMap :=
  ⟨correctionEntry_eq_entryOfClass,
    fun s => correctionEntry_eq_entryOfClass_iff s .noError,
    fun s => correctionEntry_eq_entryOfClass_iff s .parityOnly,
    fun s => correctionEntry_eq_entryOfClass_iff s .uncorrectable,
    fun s i => correctionEntry_eq_entryOfClass_iff s (.dataBit i)⟩

/-- Settles O23: the steps over the table by the definition's branches, and the classes by `decodeByte_eq`. -/
theorem decodeByteFollowsTableAndMap : Obligations.DecodeByteFollowsTableAndMap := by
  intro b s
  exact ⟨decodeByte_of_zero b, decodeByte_of_parityOnly_entry b, decodeByte_of_uncorrectable_entry b,
    decodeByte_of_mask_entry b, decodeByte_of_class b, decodeByte_of_class b, fun _ => decodeByte_of_class b,
    decodeByte_of_class b⟩

end Sys2Proof.Machine

/-! SUPPORT. What each block's operations leave alone, the decoder's response field by field, and one lane at a time: what its
level and byte tell of its class, and what decoding the byte again gives (spec/40_encoder.md R60, spec/41_decoder.md R68 to
R77). -/

namespace Sys2Proof.Machine

/-! ### The frame of each block -/

/-- An operation of the encoder changes nothing but the encoder's ports (R60). -/
theorem encoder_frame {p : EncIn} {s t : State} (h : exec (instrOfEncIn p) s = .next t) :
    t = { s with encIn := t.encIn, par := t.par } := by
  rw [exec_instrOfEncIn] at h
  cases h
  rfl

/-- An operation of the decoder changes nothing but the decoder's ports (R77). -/
theorem decoder_frame {p : DecIn} {s t : State} (h : exec (instrOfDecIn p) s = .next t) :
    t = { s with decIn := t.decIn, decOut := t.decOut } := by
  rw [exec_instrOfDecIn] at h
  cases h
  rfl

/-! ### The response, field by field -/

theorem decoderResponse_single_present (v1 : Bool) (rp b1 b0 : Byte) :
    decoderResponse { pair := false, v1 := v1, v0 := true, rp := rp, b1 := b1, b0 := b0 } =
      { level := laneLevelOnPort (classLevel (receivedClass b0 (loNibble rp))), c1 := b1
        c0 := classByte b0 (receivedClass b0 (loNibble rp)) } := rfl

theorem decoderResponse_pair_present (rp b1 b0 : Byte) :
    decoderResponse { pair := true, v1 := true, v0 := true, rp := rp, b1 := b1, b0 := b0 } =
      { level := pairLevel (classLevel (receivedClass b0 (loNibble rp))) (classLevel (receivedClass b1 (hiNibble rp)))
        c1 := classByte b1 (receivedClass b1 (hiNibble rp)), c0 := classByte b0 (receivedClass b0 (loNibble rp)) } := rfl

theorem decoderResponse_pair_absent {v1 v0 : Bool} (absent : ¬(v0 = true ∧ v1 = true)) (rp b1 b0 : Byte) :
    decoderResponse { pair := true, v1 := v1, v0 := v0, rp := rp, b1 := b1, b0 := b0 } =
      { level := 3, c1 := b1, c0 := b0 } := by
  match v0, v1, absent with
  | false, _, _ => rfl
  | true, false, _ => rfl
  | true, true, both => exact absurd ⟨rfl, rfl⟩ both

theorem receivedClass_loNibble (b rp : Byte) :
    receivedClass b (loNibble rp) = syndromeMap (parity b ^^^ rp.extractLsb' 0 4) := rfl

theorem receivedClass_hiNibble (b rp : Byte) :
    receivedClass b (hiNibble rp) = syndromeMap (parity b ^^^ rp.extractLsb' 4 4) := by
  rw [hiNibble_eq_extractLsb']
  rfl

/-! ### What a lane's level and byte tell of its class -/

theorem lane_clean_iff (c : SyndromeClass) : laneLevelOnPort (classLevel c) = 0 ↔ c = .noError := by
  cases c <;> simp [classLevel, laneLevelOnPort]

theorem lane_uncorrectable_iff (c : SyndromeClass) : laneLevelOnPort (classLevel c) = 3 ↔ c = .uncorrectable := by
  cases c <;> simp [classLevel, laneLevelOnPort]

/-- Level 1 with another byte than was received is a corrected data bit (R69). -/
theorem lane_corrected_iff (b : Byte) (c : SyndromeClass) :
    laneLevelOnPort (classLevel c) = 1 ∧ classByte b c ≠ b ↔ ∃ i, c = .dataBit i := by
  cases c <;> simp [classLevel, laneLevelOnPort, classByte, bitMask_ne_zero]

/-- Level 1 with the byte that was received is an ignored parity bit (R69). -/
theorem lane_parityOnly_iff (b : Byte) (c : SyndromeClass) :
    laneLevelOnPort (classLevel c) = 1 ∧ classByte b c = b ↔ c = .parityOnly := by
  cases c <;> simp [classLevel, laneLevelOnPort, classByte, bitMask_ne_zero]

theorem lane_level_ne_two (c : SyndromeClass) : laneLevelOnPort (classLevel c) ≠ 2 := by
  cases c <;> simp [classLevel, laneLevelOnPort]

theorem classLevel_eq_three_iff (c : SyndromeClass) : classLevel c = 3 ↔ c = .uncorrectable := by
  cases c <;> simp [classLevel]

/-- A pair's level is acceptable exactly when no lane is uncorrectable (R73). -/
theorem acceptable_pairLevel_iff (c0 c1 : SyndromeClass) :
    acceptable (pairLevel (classLevel c0) (classLevel c1)) = true ↔ c0 ≠ .uncorrectable ∧ c1 ≠ .uncorrectable := by
  have levels : ∀ l0 ∈ laneLevels, ∀ l1 ∈ laneLevels, acceptable (pairLevel l0 l1) = true ↔ l0 ≠ 3 ∧ l1 ≠ 3 := by decide
  rw [levels _ (classLevel_mem_laneLevels c0) _ (classLevel_mem_laneLevels c1), ne_eq, ne_eq, classLevel_eq_three_iff,
    classLevel_eq_three_iff]

/-! ### The byte of a class -/

theorem classByte_ne_self_iff (b : Byte) (c : SyndromeClass) : classByte b c ≠ b ↔ ∃ i, c = .dataBit i := by
  cases c <;> simp [classByte, bitMask_ne_zero]

/-- A class other than no error gives level 1, or level 3 with the byte as received (R68). -/
theorem lane_error (b : Byte) {c : SyndromeClass} (h : c ≠ .noError) :
    laneLevelOnPort (classLevel c) = 1 ∨ laneLevelOnPort (classLevel c) = 3 ∧ classByte b c = b := by
  cases c with
  | noError => exact absurd rfl h
  | parityOnly => exact .inl rfl
  | dataBit i => exact .inl rfl
  | uncorrectable => exact .inr ⟨rfl, rfl⟩

/-- A lane's byte is as received or has one bit changed (R68). -/
theorem classByte_eq_self_or_one_bit (b : Byte) (c : SyndromeClass) :
    classByte b c = b ∨ ∃ k : Fin 8, classByte b c = b ^^^ bitMask k := by
  cases c with
  | noError => exact .inl rfl
  | parityOnly => exact .inl rfl
  | dataBit i => exact .inr ⟨i, rfl⟩
  | uncorrectable => exact .inl rfl

/-! ### Decoding a lane's byte again -/

theorem syndromeMap_eq_dataBit_iff (s : Nibble) (i : Fin 8) : syndromeMap s = .dataBit i ↔ s = pos i := by
  revert s i
  decide

/-- A corrected bit takes its position out of the syndrome (R76). -/
theorem receivedClass_corrected {b : Byte} {rp4 : Nibble} {i : Fin 8} (h : receivedClass b rp4 = .dataBit i) :
    receivedClass (b ^^^ bitMask i) rp4 = .noError := by
  have position : parity b ^^^ rp4 = pos i := (syndromeMap_eq_dataBit_iff _ i).mp h
  have syndrome : parity (b ^^^ bitMask i) ^^^ rp4 = 0 := by
    rw [parity_xor, parity_bitMask, BitVec.xor_assoc, BitVec.xor_comm (pos i), ← BitVec.xor_assoc, position]
    exact BitVec.xor_self
  rw [receivedClass, syndrome]
  rfl

end Sys2Proof.Machine

/-! SUPPORT. The statements about the two blocks' operations in every state, settled. -/

namespace Sys2Proof.Machine

/-- Settles O15: `encoderResponse` of ENC1's inputs. -/
theorem enc1AnswersParity : Obligations.Enc1AnswersParity :=
  fun s b1 b0 => exec_instrOfEncIn ⟨false, b1, b0⟩ s

/-- Settles O18: both operations are the encoder's. -/
theorem encodersLeaveTheRestAlone : Obligations.EncodersLeaveTheRestAlone := by
  intro b1 b0 i s t operation h
  have frame : t = { s with encIn := t.encIn, par := t.par } := by
    obtain rfl | rfl := operation
    · exact encoder_frame (p := ⟨false, b1, b0⟩) h
    · exact encoder_frame (p := ⟨true, b1, b0⟩) h
  rw [frame]
  exact ⟨rfl, rfl, rfl, rfl, rfl, rfl, rfl, rfl⟩

/-- Settles O24: `decoderResponse` of DEC1's inputs, with and without the reference. -/
theorem dec1AnswersByClass : Obligations.Dec1AnswersByClass := by
  intro s v1 v0 rp b1 b0
  cases v0 with
  | false => exact exec_instrOfDecIn ⟨false, v1, false, rp, b1, b0⟩ s
  | true => exact exec_instrOfDecIn ⟨false, v1, true, rp, b1, b0⟩ s

/-- Settles O25: `decoderResponse` of DEC2's inputs, with both references and with one absent. -/
theorem dec2AnswersLaneByLane : Obligations.Dec2AnswersLaneByLane := by
  intro s v1 v0 rp b1 b0
  refine (exec_instrOfDecIn ⟨true, v1, v0, rp, b1, b0⟩ s).trans ?_
  by_cases both : v0 = true ∧ v1 = true
  · rw [if_pos both]
    obtain ⟨rfl, rfl⟩ := both
    rw [decoderResponse_pair_present, receivedClass_loNibble, receivedClass_hiNibble]
    rfl
  · rw [if_neg both, decoderResponse_pair_absent both]
    rfl

/-- Settles O27: both operations are the decoder's. -/
theorem decodersLeaveTheRestAlone : Obligations.DecodersLeaveTheRestAlone := by
  intro v1 v0 rp b1 b0 i s t operation h
  have frame : t = { s with decIn := t.decIn, decOut := t.decOut } := by
    obtain rfl | rfl := operation
    · exact decoder_frame (p := ⟨false, v1, v0, rp, b1, b0⟩) h
    · exact decoder_frame (p := ⟨true, v1, v0, rp, b1, b0⟩) h
  rw [frame]
  exact ⟨rfl, rfl, rfl, rfl, rfl, rfl, rfl, rfl⟩

/-- Settles O28: a zero syndrome's class is no error, in one lane or in both. -/
theorem conditionsAreDecidedInOrder : Obligations.ConditionsAreDecidedInOrder := by
  intro s v1 v0 rp b1 b0
  refine ⟨⟨_, decoderAnswers_dec1 s v1 v0 rp b1 b0, ?_, ?_, ?_⟩,
    ⟨_, decoderAnswers_dec1 s v1 false _ b1 b0, rfl⟩,
    ⟨_, decoderAnswers_dec2 s v1 v0 rp b1 b0, fun absent => decoderResponse_pair_level_absent absent rp b1 b0, ?_, ?_⟩⟩
  · rintro rfl
    rfl
  · rintro rfl zero
    rw [decoderResponse_single_level_present, zero]
    rfl
  · rintro rfl -
    rfl
  · rintro rfl rfl zero
    rw [← combinedParityByte_eq_append, eq_zero_iff_nibbles, loNibble_xor, hiNibble_xor, loNibble_combinedParityByte,
      hiNibble_combinedParityByte] at zero
    obtain ⟨zero0, zero1⟩ := zero
    rw [decoderResponse_pair_present, receivedClass, receivedClass, zero0, zero1]
    rfl
  · rintro rfl rfl -
    exact decoderResponse_pair_level_present rp b1 b0

/-- Settles O30: the class of an uncorrectable lane leaves its byte, and the lanes do not meet. -/
theorem levelThreeChangesNothing : Obligations.LevelThreeChangesNothing := by
  intro s v1 v0 rp b1 b0
  refine ⟨⟨_, _, exec_instrOfDecIn ⟨false, v1, v0, rp, b1, b0⟩ s, rfl, ?_, rfl⟩,
    ⟨_, _, exec_instrOfDecIn ⟨true, v1, v0, rp, b1, b0⟩ s, rfl, rfl, ?_, ?_⟩⟩
  · rintro rfl level
    have uncorrectable : receivedClass b0 (loNibble rp) = .uncorrectable :=
      (lane_uncorrectable_iff _).mp level
    rw [decoderResponse_single_present, uncorrectable]
    rfl
  · rintro rfl rfl uncorrectable
    rw [decoderResponse_pair_present, receivedClass_loNibble, receivedClass_hiNibble, uncorrectable]
    exact ⟨rfl, rfl⟩
  · rintro rfl rfl uncorrectable
    rw [decoderResponse_pair_present, receivedClass_loNibble, receivedClass_hiNibble, uncorrectable]
    exact ⟨rfl, rfl⟩

/-- Settles O31: each DEC1 is given the lane's byte and its nibble of the combined parity. -/
theorem pairLanesAreTwoSingles : Obligations.PairLanesAreTwoSingles := by
  intro s w0 w1 rp b1 b0 x y
  refine ⟨_, _, _, decoderAnswers_dec2 s true true rp b1 b0, decoderAnswers_dec1 s w0 true _ x b0,
    decoderAnswers_dec1 s w1 true _ y b1, ?_⟩
  have nibble (n : Nibble) : loNibble (n.setWidth 8) = n := loNibble_singleParityByte n
  rw [decoderResponse_pair_present, decoderResponse_single_present, decoderResponse_single_present, nibble, nibble,
    ← hiNibble_eq_extractLsb']
  exact ⟨rfl, rfl, rfl⟩

/-- Settles O32: the level and a change of the byte tell the four classes apart. -/
theorem levelOneCoversTwoEvents : Obligations.LevelOneCoversTwoEvents :=
  fun s v1 rp b1 b0 => ⟨_, decoderAnswers_dec1 s v1 true rp b1 b0, lane_clean_iff _, lane_corrected_iff b0 _,
    lane_parityOnly_iff b0 _, lane_uncorrectable_iff _, lane_level_ne_two _,
    _, decoderAnswers_dec1 s v1 false rp b1 b0, rfl⟩

/-- Settles O33: each byte is the one of its lane's class, or is passed through. -/
theorem atMostOneBitOfAByteChanges : Obligations.AtMostOneBitOfAByteChanges := by
  rintro s v1 v0 rp b1 b0 _ (rfl | rfl)
  · refine ⟨_, decoderAnswers_dec1 s v1 v0 rp b1 b0, ?_, ?_⟩
    · cases v0 with
      | false => exact .inl rfl
      | true => exact classByte_eq_self_or_one_bit b0 _
    · cases v0 <;> exact .inl rfl
  · refine ⟨_, decoderAnswers_dec2 s v1 v0 rp b1 b0, ?_⟩
    by_cases both : v0 = true ∧ v1 = true
    · obtain ⟨rfl, rfl⟩ := both
      exact ⟨classByte_eq_self_or_one_bit b0 _, classByte_eq_self_or_one_bit b1 _⟩
    · rw [decoderResponse_pair_absent both]
      exact ⟨.inl rfl, .inl rfl⟩

/-- Settles O34: a corrected bit takes its position out of the syndrome; every other class leaves the byte, and so the class. -/
theorem decodingAgain : Obligations.DecodingAgain := by
  intro s s' v1 rp b1 b0
  refine ⟨_, _, decoderAnswers_dec1 s v1 true rp b1 b0, decoderAnswers_dec1 s' v1 true rp b1 _, ?_⟩
  simp only [decoderResponse_single_present]
  by_cases same : classByte b0 (receivedClass b0 (loNibble rp)) = b0
  · rw [same]
    exact ⟨same, fun _ changed => absurd rfl changed, fun level _ => level, fun level => level⟩
  · obtain ⟨i, dataBit⟩ := (classByte_ne_self_iff b0 _).mp same
    have again : receivedClass (classByte b0 (receivedClass b0 (loNibble rp))) (loNibble rp) = .noError := by
      rw [dataBit]
      exact receivedClass_corrected dataBit
    rw [again]
    exact ⟨rfl, fun _ _ => rfl, fun _ unchanged => absurd unchanged same,
      fun level => nomatch ((lane_uncorrectable_iff _).mp level).symm.trans dataBit⟩

/-- Settles O35: below 3 stand only the sums of lane levels 0 and 1. -/
theorem acceptablePairLevelMeansNoUncorrectableLane : Obligations.AcceptablePairLevelMeansNoUncorrectableLane := by
  intro s rp b1 b0
  refine ⟨_, decoderAnswers_dec2 s true true rp b1 b0, ?_⟩
  rw [decoderResponse_pair_present, receivedClass_loNibble, receivedClass_hiNibble]
  exact acceptable_pairLevel_iff _ _

end Sys2Proof.Machine

/-! SUPPORT. What flipped codeword positions do to the class of a received byte: the syndrome depends on the flips alone, one
flip is undone, and two flips are not (spec/41_decoder.md R66, R74, R75). -/

namespace Sys2Proof.Machine

/-! ### The twelve positions -/

theorem mem_codewordLayout (c : Carrier) : c ∈ codewordLayout := by
  cases c with
  | check j => revert j; decide
  | data i => revert i; decide

theorem positionOf_ne_zero (c : Carrier) : positionOf c ≠ 0 := by
  have all : ∀ c ∈ codewordLayout, positionOf c ≠ 0 := by decide
  exact all c (mem_codewordLayout c)

theorem positionOf_injective {c c' : Carrier} (h : positionOf c = positionOf c') : c = c' := by
  have all : ∀ c ∈ codewordLayout, ∀ c' ∈ codewordLayout, positionOf c = positionOf c' → c = c' := by decide
  exact all c (mem_codewordLayout c) c' (mem_codewordLayout c') h

theorem parity_zero : parity 0 = 0 := by
  decide

/-- The two masks of a position, as a syndrome (R66). -/
theorem parity_dataMask_xor_parityMask (c : Carrier) : parity c.dataMask ^^^ c.parityMask = positionOf c := by
  cases c with
  | check j =>
    rw [Carrier.dataMask, parity_zero]
    exact BitVec.zero_xor
  | data i => exact BitVec.xor_zero.trans (parity_bitMask i)

/-! ### The syndrome depends only on the flips -/

theorem recomputed_xor_received (d e : Byte) (f : Nibble) : parity (d ^^^ e) ^^^ (parity d ^^^ f) = parity e ^^^ f := by
  rw [parity_xor, BitVec.xor_comm (parity d), BitVec.xor_assoc, ← BitVec.xor_assoc (parity d), BitVec.xor_self,
    BitVec.zero_xor]

theorem receivedClass_flipped (d e : Byte) (f : Nibble) :
    receivedClass (d ^^^ e) (parity d ^^^ f) = syndromeMap (parity e ^^^ f) := by
  rw [receivedClass, recomputed_xor_received]

/-- What the channel adds to a byte, it adds to the lane's byte (R68). -/
theorem classByte_xor (d e : Byte) (c : SyndromeClass) : classByte (d ^^^ e) c = d ^^^ classByte e c := by
  cases c with
  | noError => rfl
  | parityOnly => rfl
  | dataBit i => exact BitVec.xor_assoc d e (bitMask i)
  | uncorrectable => rfl

/-! ### At most one flip -/

/-- The class that a flipped position leads to: a parity bit is ignored, a data bit is corrected (R63, R74). -/
def flipClass : Option Carrier → SyndromeClass
  | none => .noError
  | some (.check _) => .parityOnly
  | some (.data i) => .dataBit i

theorem syndromeMap_flip (flip : Option Carrier) :
    syndromeMap (parity (flipDataMask flip) ^^^ flipParityMask flip) = flipClass flip := by
  match flip with
  | none => rfl
  | some (.check j) =>
    rw [flipDataMask, flipParityMask, parity_dataMask_xor_parityMask]
    exact syndromeMap_positionOf_check j
  | some (.data i) =>
    rw [flipDataMask, flipParityMask, parity_dataMask_xor_parityMask]
    exact syndromeMap_pos i

/-- The class of a flip takes the flip's data mask away again. -/
theorem classByte_flipClass (flip : Option Carrier) : classByte (flipDataMask flip) (flipClass flip) = 0 := by
  match flip with
  | none => rfl
  | some (.check j) => rfl
  | some (.data i) => exact BitVec.xor_self

theorem classLevel_flipClass (flip : Option Carrier) : classLevel (flipClass flip) = if flip = none then 0 else 1 := by
  match flip with
  | none => rfl
  | some (.check j) => rfl
  | some (.data i) => rfl

theorem receivedClass_flip (d : Byte) (flip : Option Carrier) :
    receivedClass (d ^^^ flipDataMask flip) (parity d ^^^ flipParityMask flip) = flipClass flip :=
  (receivedClass_flipped d _ _).trans (syndromeMap_flip flip)

/-- A lane with at most one flip gives back the byte that was sent (R74). -/
theorem classByte_flip (d : Byte) (flip : Option Carrier) : classByte (d ^^^ flipDataMask flip) (flipClass flip) = d := by
  rw [classByte_xor, classByte_flipClass]
  exact BitVec.xor_zero

/-! ### Two flips -/

theorem parity_two_flips (c c' : Carrier) :
    parity (c.dataMask ^^^ c'.dataMask) ^^^ (c.parityMask ^^^ c'.parityMask) = positionOf c ^^^ positionOf c' := by
  rw [parity_xor, ← parity_dataMask_xor_parityMask, ← parity_dataMask_xor_parityMask]
  ac_rfl

/-- Two different positions are never taken for what they are: whatever bit the sum of their numbers names, flipping it leaves
a difference (R75). -/
theorem classByte_two_flips_ne_zero {c c' : Carrier} (h : c ≠ c') :
    classByte (c.dataMask ^^^ c'.dataMask) (syndromeMap (positionOf c ^^^ positionOf c')) ≠ 0 := by
  have all : ∀ c ∈ codewordLayout, ∀ c' ∈ codewordLayout, c ≠ c' →
      classByte (c.dataMask ^^^ c'.dataMask) (syndromeMap (positionOf c ^^^ positionOf c')) ≠ 0 := by decide
  exact all c (mem_codewordLayout c) c' (mem_codewordLayout c') h

theorem syndromeMap_two_flips_ne_noError {c c' : Carrier} (h : c ≠ c') :
    syndromeMap (positionOf c ^^^ positionOf c') ≠ .noError := by
  rw [ne_eq, syndromeMap_eq_noError_iff]
  exact fun zero => h (positionOf_injective (BitVec.xor_eq_zero_iff.mp zero))

/-! ### The parity that was sent, hit by the channel -/

theorem loNibble_single_hit (x d : Byte) (f : Nibble) :
    loNibble (encoderResponse { pair := false, b1 := x, b0 := d } ^^^ f.setWidth 8) = parity d ^^^ f := by
  rw [loNibble_xor]
  exact congrArg₂ (· ^^^ ·) (loNibble_singleParityByte _) (loNibble_singleParityByte _)

theorem loNibble_pair_hit (d1 d0 : Byte) (f1 f0 : Nibble) :
    loNibble (encoderResponse { pair := true, b1 := d1, b0 := d0 } ^^^ combinedParityByte f1 f0) = parity d0 ^^^ f0 := by
  rw [loNibble_xor]
  exact congrArg₂ (· ^^^ ·) (loNibble_combinedParityByte _ _) (loNibble_combinedParityByte _ _)

theorem hiNibble_pair_hit (d1 d0 : Byte) (f1 f0 : Nibble) :
    hiNibble (encoderResponse { pair := true, b1 := d1, b0 := d0 } ^^^ combinedParityByte f1 f0) = parity d1 ^^^ f1 := by
  rw [hiNibble_xor]
  exact congrArg₂ (· ^^^ ·) (hiNibble_combinedParityByte _ _) (hiNibble_combinedParityByte _ _)

end Sys2Proof.Machine

/-! SUPPORT. The statements about flipped codeword positions, from the encoder through the channel to the decoder, settled. -/

namespace Sys2Proof.Machine

/-- Settles O20: `PAR` is linear, so the sent byte cancels and the flips' positions remain. -/
theorem syndromeDependsOnlyOnFlips : Obligations.SyndromeDependsOnlyOnFlips := by
  refine ⟨fun backend d e f => ?_, fun backend d c => ?_, positionOf_ne_zero, fun _ _ => positionOf_injective⟩
  · rw [syndrome_eq, recomputed_xor_received]
  · rw [syndrome_eq, recomputed_xor_received, parity_dataMask_xor_parityMask]

/-- Settles O36: the flip's class undoes it, and its level tells whether there was one. -/
theorem oneFlipIsRestored : Obligations.OneFlipIsRestored := by
  intro s d x y v1 flip
  refine ⟨_, _, _, exec_instrOfEncIn ⟨false, x, d⟩ s, rfl, decoderAnswers_dec1 _ v1 true _ y _, ?_⟩
  rw [decoderResponse_single_present, loNibble_single_hit, receivedClass_flip, classByte_flip, classLevel_flipClass]
  exact ⟨rfl, by split <;> rfl⟩

/-- Settles O37: each lane's nibble carries its own flip, and the two levels are added. -/
theorem oneFlipPerLaneIsRestored : Obligations.OneFlipPerLaneIsRestored := by
  intro s d0 d1 flip0 flip1
  refine ⟨_, _, _, exec_instrOfEncIn ⟨true, d1, d0⟩ s, rfl, decoderAnswers_dec2 _ true true _ _ _, ?_⟩
  rw [decoderResponse_pair_present, loNibble_pair_hit, hiNibble_pair_hit, receivedClass_flip, receivedClass_flip,
    classByte_flip, classByte_flip, classLevel_flipClass, classLevel_flipClass]
  exact ⟨rfl, rfl, by split <;> split <;> rfl⟩

/-- Settles O38: the sum of two different positions is nonzero, and its class never undoes them. -/
theorem twoFlipsAreNeverRestored : Obligations.TwoFlipsAreNeverRestored := by
  intro s d x y v1 c c' different
  refine ⟨_, _, _, exec_instrOfEncIn ⟨false, x, d⟩ s, rfl, decoderAnswers_dec1 _ v1 true _ y _, ?_⟩
  rw [decoderResponse_single_present, loNibble_single_hit, BitVec.xor_assoc d, receivedClass_flipped, parity_two_flips]
  refine ⟨fun restored => classByte_two_flips_ne_zero different ?_,
    (lane_error _ (syndromeMap_two_flips_ne_noError different)).symm⟩
  rw [classByte_xor] at restored
  exact (BitVec.xor_right_inj d).mp (restored.trans BitVec.xor_zero.symm)

/-- Settles O39: all pairs and all triples, counted. -/
theorem countsOfFlipPatterns : Obligations.CountsOfFlipPatterns :=
  ⟨List.length_sublistsLen _ _, by decide, by decide, by decide, List.length_sublistsLen _ _, by decide⟩

end Sys2Proof.Machine
